-- ==== Sys2Proof/Word.lean ====
section
/-! DEFINITION. The number types of sha256_core (rules R9, R16, R121): Word, Byte, and a file of eight Words, the shape of
the hash state, of the working registers and of the table of initial constants. -/

namespace Sys2Proof

/-- A Word: "exactly 32 bits unsigned, value always in [0, 2^32)" (R121). -/
abbrev Word := BitVec 32

/-- A byte: an unsigned integer in [0, 256) (R9). -/
abbrev Byte := BitVec 8

/-- Eight Words with index 0 first: `H[0..7]`, `HINIT[0..7]`, and `V[0..7]`, whose aliases (a, b, c, d, e, f, g, h) are
`w0` .. `w7` in that order (R22, R23, R34). -/
structure Words8 where
  w0 : Word
  w1 : Word
  w2 : Word
  w3 : Word
  w4 : Word
  w5 : Word
  w6 : Word
  w7 : Word
  deriving DecidableEq, Repr

/-- All eight Words 0. -/
def Words8.zero : Words8 := ⟨0, 0, 0, 0, 0, 0, 0, 0⟩

/-- Element j of the file, 0 ≤ j ≤ 7. -/
def Words8.get (v : Words8) (j : Fin 8) : Word :=
  match j with
  | 0 => v.w0
  | 1 => v.w1
  | 2 => v.w2
  | 3 => v.w3
  | 4 => v.w4
  | 5 => v.w5
  | 6 => v.w6
  | 7 => v.w7

end Sys2Proof
end

