-- ==== Sys2Proof/Syntax.lean ====
section
/-! DEFINITION. The command set of sha256_core, version 1 (rules R3, R95): one constructor per row of the opcode table.
A term is a whole command in the sense of R17: the decoded command word and, last, its 32-bit data word `wdata`, which every
command is presented with, which four commands use (R92) and which a fault records (R98, R254). Register numbers are
`XReg`; every other field of R94 is the natural number the spec takes it as, and `Instr.WellFormed` says its width. -/

namespace Sys2Proof

/-- The index of a WAU register `X[0..3]`: the 2-bit fields rd, ra, rb, rc of R94. -/
abbrev XReg := Fin 4

inductive Instr where
  /-- 0x00 NOP (R221) -/
  | nop (wdata : Word)
  /-- 0x01 RDREG r8 (R222) -/
  | rdreg (r8 : Nat) (wdata : Word)
  /-- 0x02 WRREG r8, value; the value is `wdata` (R223) -/
  | wrreg (r8 : Nat) (wdata : Word)
  /-- 0x03 INIT (R224) -/
  | init (wdata : Word)
  /-- 0x04 HASH (R230) -/
  | hash (wdata : Word)
  /-- 0x10 MSGWR addr, byte; the byte is `wdata[7:0]` (R167) -/
  | msgwr (a24 : Nat) (wdata : Word)
  /-- 0x11 MSGRD addr (R168) -/
  | msgrd (a24 : Nat) (wdata : Word)
  /-- 0x12 PAD (R165) -/
  | pad (wdata : Word)
  /-- 0x13 PADRD j (R166) -/
  | padrd (a24 : Nat) (wdata : Word)
  /-- 0x20 WLOAD idx (R184) -/
  | wload (a24 : Nat) (wdata : Word)
  /-- 0x21 WSTEP t (R185) -/
  | wstep (t6 : Nat) (wdata : Word)
  /-- 0x22 EXPAND idx (R186) -/
  | expand (a24 : Nat) (wdata : Word)
  /-- 0x30 CLOAD (R204) -/
  | cload (wdata : Word)
  /-- 0x31 ROUND i (R205) -/
  | round (t6 : Nat) (wdata : Word)
  /-- 0x32 CFOLD (R206) -/
  | cfold (wdata : Word)
  /-- 0x33 COMPRESS (R207) -/
  | compress (wdata : Word)
  /-- 0x40 WLDI Xd, v; v = {hi8, wdata} (R138) -/
  | wldi (rd : XReg) (hi8 : Nat) (wdata : Word)
  /-- 0x41 WLDB Xd, nb, lanes; the lanes are `wdata` (R139) -/
  | wldb (rd : XReg) (nb3 : Nat) (wdata : Word)
  /-- 0x42 ADD Xd, Xa, Xb (R140) -/
  | add (rd ra rb : XReg) (wdata : Word)
  /-- 0x43 SHR Xd, Xa, n (R141) -/
  | shr (rd ra : XReg) (n6 : Nat) (wdata : Word)
  /-- 0x44 ROTR Xd, Xa, n (R142) -/
  | rotr (rd ra : XReg) (n6 : Nat) (wdata : Word)
  /-- 0x45 XOR Xd, Xa, Xb (R143) -/
  | xor (rd ra rb : XReg) (wdata : Word)
  /-- 0x46 CH Xd, Xa, Xb, Xc (R144) -/
  | ch (rd ra rb rc : XReg) (wdata : Word)
  /-- 0x47 MAJ Xd, Xa, Xb, Xc (R145) -/
  | maj (rd ra rb rc : XReg) (wdata : Word)
  /-- 0x48 SIGMA0 Xd, Xa (R146) -/
  | sigma0 (rd ra : XReg) (wdata : Word)
  /-- 0x49 SIGMA1 Xd, Xa (R147) -/
  | sigma1 (rd ra : XReg) (wdata : Word)
  /-- 0x4A USIGMA0 Xd, Xa (R148) -/
  | usigma0 (rd ra : XReg) (wdata : Word)
  /-- 0x4B USIGMA1 Xd, Xa (R149) -/
  | usigma1 (rd ra : XReg) (wdata : Word)
  /-- 0x4C WEQ Xa, Xb (R150) -/
  | weq (ra rb : XReg) (wdata : Word)
  deriving DecidableEq, Repr

/-- The data word a command is presented with. -/
def Instr.wdata : Instr → Word
  | .nop d => d
  | .rdreg _ d => d
  | .wrreg _ d => d
  | .init d => d
  | .hash d => d
  | .msgwr _ d => d
  | .msgrd _ d => d
  | .pad d => d
  | .padrd _ d => d
  | .wload _ d => d
  | .wstep _ d => d
  | .expand _ d => d
  | .cload d => d
  | .round _ d => d
  | .cfold d => d
  | .compress d => d
  | .wldi _ _ d => d
  | .wldb _ _ d => d
  | .add _ _ _ d => d
  | .shr _ _ _ d => d
  | .rotr _ _ _ d => d
  | .xor _ _ _ d => d
  | .ch _ _ _ _ d => d
  | .maj _ _ _ _ d => d
  | .sigma0 _ _ d => d
  | .sigma1 _ _ d => d
  | .usigma0 _ _ d => d
  | .usigma1 _ _ d => d
  | .weq _ _ d => d

/-- The mnemonic of the row of R95 that a command is. -/
def Instr.mnemonic : Instr → String
  | .nop _ => "NOP"
  | .rdreg _ _ => "RDREG"
  | .wrreg _ _ => "WRREG"
  | .init _ => "INIT"
  | .hash _ => "HASH"
  | .msgwr _ _ => "MSGWR"
  | .msgrd _ _ => "MSGRD"
  | .pad _ => "PAD"
  | .padrd _ _ => "PADRD"
  | .wload _ _ => "WLOAD"
  | .wstep _ _ => "WSTEP"
  | .expand _ _ => "EXPAND"
  | .cload _ => "CLOAD"
  | .round _ _ => "ROUND"
  | .cfold _ => "CFOLD"
  | .compress _ => "COMPRESS"
  | .wldi _ _ _ => "WLDI"
  | .wldb _ _ _ => "WLDB"
  | .add _ _ _ _ => "ADD"
  | .shr _ _ _ _ => "SHR"
  | .rotr _ _ _ _ => "ROTR"
  | .xor _ _ _ _ => "XOR"
  | .ch _ _ _ _ _ => "CH"
  | .maj _ _ _ _ _ => "MAJ"
  | .sigma0 _ _ _ => "SIGMA0"
  | .sigma1 _ _ _ => "SIGMA1"
  | .usigma0 _ _ _ => "USIGMA0"
  | .usigma1 _ _ _ => "USIGMA1"
  | .weq _ _ _ => "WEQ"

end Sys2Proof
end

