-- ==== Sys2Proof/WellFormed.lean ====
section
/-! DEFINITION. When a command term has an encoding: every numeric field fits the width rule R94 gives it. A register number
fits by its type, and a data word is 32 bits by its type. An operand VALUE out of range (an address ≥ `MSG_CAP`, n6 > 32, an
unmapped r8, …) is no question of well-formedness: such a word is legal and its command faults (R97). -/

namespace Sys2Proof

/-- A term that some command word stands for (R93, R94). -/
def Instr.wellFormed : Instr → Bool
  | .nop _ => true
  | .rdreg r8 _ => decide (r8 < 2 ^ 8)
  | .wrreg r8 _ => decide (r8 < 2 ^ 8)
  | .init _ => true
  | .hash _ => true
  | .msgwr a24 _ => decide (a24 < 2 ^ 24)
  | .msgrd a24 _ => decide (a24 < 2 ^ 24)
  | .pad _ => true
  | .padrd a24 _ => decide (a24 < 2 ^ 24)
  | .wload a24 _ => decide (a24 < 2 ^ 24)
  | .wstep t6 _ => decide (t6 < 2 ^ 6)
  | .expand a24 _ => decide (a24 < 2 ^ 24)
  | .cload _ => true
  | .round t6 _ => decide (t6 < 2 ^ 6)
  | .cfold _ => true
  | .compress _ => true
  | .wldi _ hi8 _ => decide (hi8 < 2 ^ 8)
  | .wldb _ nb3 _ => decide (nb3 < 2 ^ 3)
  | .add _ _ _ _ => true
  | .shr _ _ n6 _ => decide (n6 < 2 ^ 6)
  | .rotr _ _ n6 _ => decide (n6 < 2 ^ 6)
  | .xor _ _ _ _ => true
  | .ch _ _ _ _ _ => true
  | .maj _ _ _ _ _ => true
  | .sigma0 _ _ _ => true
  | .sigma1 _ _ _ => true
  | .usigma0 _ _ _ => true
  | .usigma1 _ _ _ => true
  | .weq _ _ _ => true

end Sys2Proof
end

