-- ==== Sys2Proof/Decode.lean ====
section
/-! DEFINITION. Decoding and encoding of commands (30_encoding.md rules R92 to R98, R100). A command is a 32-bit command word
with its 32-bit data word; the opcode is bits 31:24 and every bit a command does not use must be zero. `decode` is total:
every command word is one command with its fields, or is rejected by name, and both rejections are the illegal words of
R97. `encode` is the assembly of R100. -/

namespace Sys2Proof

/-- What the host presents in one transaction: the command word `cmd` and its data word `wdata` (R17). -/
structure Command where
  cmd : Word
  wdata : Word
  deriving DecidableEq, Repr

/-- The two ways in which a command word is illegal (R97). -/
inductive Illegal where
  /-- (a) bits 31:24 are none of the 29 assigned opcodes -/
  | unassignedOpcode
  /-- (b) the opcode is assigned but a must-be-zero bit of its format is 1 -/
  | mustBeZero
  deriving DecidableEq, Repr

/-- `v[hi:lo]`, the unsigned integer made of bits hi down to lo of v: `floor(v / 2^lo) mod 2^(hi−lo+1)` (R10). -/
def bits (v : Word) (hi lo : Nat) : Nat := v.toNat / 2 ^ lo % 2 ^ (hi - lo + 1)

/-- The 2-bit register field whose lower bit is `lo` (R93, R94). -/
def xregField (v : Word) (lo : Nat) : XReg := ⟨v.toNat / 2 ^ lo % 4, Nat.mod_lt _ (by decide)⟩

/-- Accept the command if its must-be-zero bits are zero (R97 (b)). -/
def ifZero (mbz : Nat) (i : Instr) : Except Illegal Instr :=
  if mbz = 0 then .ok i else .error .mustBeZero

/-- The decoder of R96 over the rows of R95, each with the must-be-zero bits of its format (R93). -/
def decode (c : Command) : Except Illegal Instr :=
  let b := bits c.cmd
  let op := b 31 24
  let d := c.wdata
  let rd := xregField c.cmd 22
  let ra := xregField c.cmd 20
  let rb := xregField c.cmd 18
  let rc := xregField c.cmd 16
  -- core control
  if op = 0x00 then ifZero (b 23 0) (.nop d)
  else if op = 0x01 then ifZero (b 23 8) (.rdreg (b 7 0) d)
  else if op = 0x02 then ifZero (b 23 8) (.wrreg (b 7 0) d)
  else if op = 0x03 then ifZero (b 23 0) (.init d)
  else if op = 0x04 then ifZero (b 23 0) (.hash d)
  -- message_padder
  else if op = 0x10 then .ok (.msgwr (b 23 0) d)
  else if op = 0x11 then .ok (.msgrd (b 23 0) d)
  else if op = 0x12 then ifZero (b 23 0) (.pad d)
  else if op = 0x13 then .ok (.padrd (b 23 0) d)
  -- schedule_expander
  else if op = 0x20 then .ok (.wload (b 23 0) d)
  else if op = 0x21 then ifZero (b 23 6) (.wstep (b 5 0) d)
  else if op = 0x22 then .ok (.expand (b 23 0) d)
  -- compression_round_pipeline
  else if op = 0x30 then ifZero (b 23 0) (.cload d)
  else if op = 0x31 then ifZero (b 23 6) (.round (b 5 0) d)
  else if op = 0x32 then ifZero (b 23 0) (.cfold d)
  else if op = 0x33 then ifZero (b 23 0) (.compress d)
  -- word_arithmetic_unit
  else if op = 0x40 then ifZero (b 21 8) (.wldi rd (b 7 0) d)
  else if op = 0x41 then ifZero (b 21 3) (.wldb rd (b 2 0) d)
  else if op = 0x42 then ifZero (b 17 0) (.add rd ra rb d)
  else if op = 0x43 then ifZero (b 19 6) (.shr rd ra (b 5 0) d)
  else if op = 0x44 then ifZero (b 19 6) (.rotr rd ra (b 5 0) d)
  else if op = 0x45 then ifZero (b 17 0) (.xor rd ra rb d)
  else if op = 0x46 then ifZero (b 15 0) (.ch rd ra rb rc d)
  else if op = 0x47 then ifZero (b 15 0) (.maj rd ra rb rc d)
  else if op = 0x48 then ifZero (b 19 0) (.sigma0 rd ra d)
  else if op = 0x49 then ifZero (b 19 0) (.sigma1 rd ra d)
  else if op = 0x4A then ifZero (b 19 0) (.usigma0 rd ra d)
  else if op = 0x4B then ifZero (b 19 0) (.usigma1 rd ra d)
  else if op = 0x4C then ifZero (b 23 22 + b 17 0) (.weq ra rb d)
  else .error .unassignedOpcode

/-- The opcode of a command, bits 31:24 of its word (R95). -/
def Instr.opcode : Instr → Nat
  | .nop _ => 0x00
  | .rdreg _ _ => 0x01
  | .wrreg _ _ => 0x02
  | .init _ => 0x03
  | .hash _ => 0x04
  | .msgwr _ _ => 0x10
  | .msgrd _ _ => 0x11
  | .pad _ => 0x12
  | .padrd _ _ => 0x13
  | .wload _ _ => 0x20
  | .wstep _ _ => 0x21
  | .expand _ _ => 0x22
  | .cload _ => 0x30
  | .round _ _ => 0x31
  | .cfold _ => 0x32
  | .compress _ => 0x33
  | .wldi _ _ _ => 0x40
  | .wldb _ _ _ => 0x41
  | .add _ _ _ _ => 0x42
  | .shr _ _ _ _ => 0x43
  | .rotr _ _ _ _ => 0x44
  | .xor _ _ _ _ => 0x45
  | .ch _ _ _ _ _ => 0x46
  | .maj _ _ _ _ _ => 0x47
  | .sigma0 _ _ _ => 0x48
  | .sigma1 _ _ _ => 0x49
  | .usigma0 _ _ _ => 0x4A
  | .usigma1 _ _ _ => 0x4B
  | .weq _ _ _ => 0x4C

/-- Bits 23:0 of a command word, `imm24`, assembled from the fields (R93, R100). -/
def Instr.imm24 : Instr → Nat
  | .nop _ => 0
  | .rdreg r8 _ => r8
  | .wrreg r8 _ => r8
  | .init _ => 0
  | .hash _ => 0
  | .msgwr a24 _ => a24
  | .msgrd a24 _ => a24
  | .pad _ => 0
  | .padrd a24 _ => a24
  | .wload a24 _ => a24
  | .wstep t6 _ => t6
  | .expand a24 _ => a24
  | .cload _ => 0
  | .round t6 _ => t6
  | .cfold _ => 0
  | .compress _ => 0
  | .wldi rd hi8 _ => rd.val * 2 ^ 22 + hi8
  | .wldb rd nb3 _ => rd.val * 2 ^ 22 + nb3
  | .add rd ra rb _ => rd.val * 2 ^ 22 + ra.val * 2 ^ 20 + rb.val * 2 ^ 18
  | .shr rd ra n6 _ => rd.val * 2 ^ 22 + ra.val * 2 ^ 20 + n6
  | .rotr rd ra n6 _ => rd.val * 2 ^ 22 + ra.val * 2 ^ 20 + n6
  | .xor rd ra rb _ => rd.val * 2 ^ 22 + ra.val * 2 ^ 20 + rb.val * 2 ^ 18
  | .ch rd ra rb rc _ => rd.val * 2 ^ 22 + ra.val * 2 ^ 20 + rb.val * 2 ^ 18 + rc.val * 2 ^ 16
  | .maj rd ra rb rc _ => rd.val * 2 ^ 22 + ra.val * 2 ^ 20 + rb.val * 2 ^ 18 + rc.val * 2 ^ 16
  | .sigma0 rd ra _ => rd.val * 2 ^ 22 + ra.val * 2 ^ 20
  | .sigma1 rd ra _ => rd.val * 2 ^ 22 + ra.val * 2 ^ 20
  | .usigma0 rd ra _ => rd.val * 2 ^ 22 + ra.val * 2 ^ 20
  | .usigma1 rd ra _ => rd.val * 2 ^ 22 + ra.val * 2 ^ 20
  | .weq ra rb _ => ra.val * 2 ^ 20 + rb.val * 2 ^ 18

/-- The command word and the data word a command assembles to (R100). -/
def encode (i : Instr) : Command :=
  { cmd := BitVec.ofNat 32 (i.opcode * 2 ^ 24 + i.imm24), wdata := i.wdata }

/-- A command laid out as `spec/opcode_table.json` numbers its bits: bits 31:0 are the command word, and the bits above are
the data word, which the table gives no bits (log 13). Bits at or above `nbits` are 0. -/
def tableCommand (nbits w : Nat) : Command :=
  { cmd := BitVec.ofNat 32 (w % 2 ^ nbits), wdata := BitVec.ofNat 32 (w % 2 ^ nbits / 2 ^ 32) }

/-- The command the decoder reads from an opcode-table word. -/
def decodeTableWord (nbits w : Nat) : Option Instr :=
  match decode (tableCommand nbits w) with
  | .ok i => some i
  | .error _ => none

end Sys2Proof
end

