-- ==== Sys2Proof/Config.lean ====
section
/-! DEFINITION. The parameters of rule R8 and the one free value of the model: the message bytes that reset leaves
unspecified (93_implementation_defined.md U5). `LAT(c)` is not modelled (log 10). -/

namespace Sys2Proof

/-- `BLOCK_BYTES`, bytes per block (R8). -/
abbrev Config.blockBytes : Nat := 64

/-- `SCHED_WORDS`, words per schedule (R8). -/
abbrev Config.schedWords : Nat := 64

/-- `ROUNDS`, rounds per block (R8). -/
abbrev Config.rounds : Nat := 64

/-- The largest `MSG_CAP` the spec allows, 2^24 − 72 (R8). The smallest is 1. -/
abbrev Config.msgCapMax : Nat := 16777144

/-- The `MSG_CAP` "used by every example in this spec" (R8): the capacity `State.reset` has (DESIGN CHOICE, log 3). -/
abbrev Config.msgCapExample : Nat := 4096

/-- FREE VALUE (U5, R24, R293; log 4). `Config.msgAfterReset n a` is what `MSG[a]` holds after the n-th reset until a MSGWR
writes it: any value, stable until written. It has no body, so no proof can lean on a value of it. -/
opaque Config.msgAfterReset : Nat → Nat → Byte

end Sys2Proof
end

