-- ==== Sys2Proof/Machine/State.lean ====
section
/-! DEFINITION. The state of sha256_core (10_state.md rules R20 to R43), the command port's events and response (R90, R91,
R290), the ways a step can stop, and the state after reset (R42). Plain data throughout. -/

namespace Sys2Proof.Machine

/-- Why the model would stop with a fault. NOBODY raises one: a hardware fault (R250) is a next state, the fault entry of R254,
and "every command word and every operand value has a defined outcome in every state" (R308). The type is empty, which is
safe: no behaviour is cut off (log 15). -/
inductive Fault where
  deriving DecidableEq, Repr

/-- Why the model would refuse an instruction. -/
inductive Refusal where
  /-- An arm of `exec` whose instruction has no meaning yet. No arm raises it: all 29 commands have their meaning. It would be
  safe: the model stops where the hardware goes on. -/
  | notModelled (mnemonic : String)
  deriving DecidableEq, Repr

/-- The six faults of the hardware (R250). -/
inductive FaultKind where
  /-- InvalidLength: WLDI with hi8 ≠ 0, WLDB with nb3 ≠ 4 (R251) -/
  | invalidLength
  /-- PaddingAlignment: the padding is needed and `MSG_BITLEN mod 8 ≠ 0` (R252) -/
  | paddingAlignment
  /-- IndexOutOfRange: a schedule is asked for with idx ≥ `BLK_COUNT` (R253) -/
  | indexOutOfRange
  /-- ScheduleContract: the schedule buffer lacks the entry or the length a command needs (R203) -/
  | scheduleContract
  /-- IllegalCommand: the command word matches no row of the opcode table (R97) -/
  | illegalCommand
  /-- IllegalOperand: a legal word with an operand value outside its range (R255) -/
  | illegalOperand
  deriving DecidableEq, Repr

/-- The message memory: the bytes that a MSGWR has written since the last reset, as (address, byte) pairs. An address that is
not listed holds no written byte and reads as the free value of U5 (`State.msgByte` in Ops.lean; log 4). -/
abbrev Memory := List Host.Cell

/-- The canonical form: addresses strictly rising. What an unlisted address reads as is no byte of the list, so no further
condition is needed, and equal memories are equal lists. -/
abbrev Memory.wf (m : Memory) : Prop := m.Pairwise (fun p q => p.1 < q.1)

/-- The response to a command: `rsp_ok` and `rsp_rdata` (R91). -/
structure Response where
  ok : Bool
  rdata : Word
  deriving DecidableEq, Repr

/-- What the host can do at an edge (R14, R291): present a command, or assert `rst`. -/
inductive Event where
  | command (c : Command)
  | reset
  deriving DecidableEq, Repr

/-- The phases of the hidden sequencer (R35). -/
inductive Phase where
  | idle
  | init
  | pad
  | wload
  | wstep
  | cload
  | round
  | cfold
  | done
  deriving DecidableEq, Repr

/-- `SEQ = (phase, blk, t)`, which stands in a program counter's place (R35). -/
structure Seq where
  phase : Phase
  blk : Nat
  t : Nat
  deriving DecidableEq, Repr

/-- `SEQ` whenever the core is ready for a command (R35). -/
def Seq.ready : Seq := ⟨.idle, 0, 0⟩

/-- The whole state (R20), then the command port, then the model's own two fields. -/
structure State where
  /-- `X[0..3]`, the word registers of the word_arithmetic_unit (R21) -/
  x : Vector Word 4
  /-- `H[0..7]`, the running hash state (R22) -/
  h : Words8
  /-- `V[0..7]` = (a, b, c, d, e, f, g, h), the working registers (R23) -/
  v : Words8
  /-- `MSG`, the message memory (R24) -/
  msg : Memory
  /-- `MSG_BITLEN`, the message length in bits (R25) -/
  msgBitlen : Word
  /-- `PAD_VALID` (R27) -/
  padValid : Bool
  /-- `BLK_COUNT` (R27) -/
  blkCount : Word
  /-- the valid entries `W[0 .. SCHED_FILL−1]` of the schedule buffer, `W[0]` first (R28, U6; log 6) -/
  w : List Word
  /-- `SCHED_IDX` (R28) -/
  schedIdx : BitVec 24
  /-- `DIGEST_VALID` (R29) -/
  digestValid : Bool
  /-- `FAULT`: the core is halted (R30) -/
  fault : Bool
  /-- `ERR`, the code of the fault that halted the core (R31) -/
  err : BitVec 4
  /-- `ERR_CMD`, the command word that faulted (R31) -/
  errCmd : Word
  /-- `ERR_DATA`, its data word (R31) -/
  errData : Word
  /-- `SEQ`, the hidden sequencer (R35; log 7) -/
  seq : Seq
  /-- the response on the port after the last edge, none when `rsp_valid = 0` (R90; log 8) -/
  rsp : Option Response
  /-- the events the host is going to offer, the next one first (R14; log 1) -/
  pending : List Event
  /-- the parameter `MSG_CAP`: no step changes it (R8, R41; log 3) -/
  msgCap : Nat
  /-- which reset the unspecified message bytes stem from (R293; log 5) -/
  msgEpoch : Nat
  deriving DecidableEq, Repr

/-- `SCHED_FILL`, the number of valid schedule entries (R28). -/
def State.schedFill (s : State) : Nat := s.w.length

/-- The state after reset (R42, R290). Every listed value is the spec's; `MSG` and `W` are unspecified and hold nothing
(log 4, log 6); `pending`, `msgCap` and `msgEpoch` are DESIGN CHOICES of the model (log 1, log 3, log 5). -/
def State.reset : State where
  x := Vector.replicate 4 0
  h := HINIT
  v := Words8.zero
  msg := []
  msgBitlen := 0
  padValid := false
  blkCount := 0
  w := []
  schedIdx := 0
  digestValid := false
  fault := false
  err := 0
  errCmd := 0
  errData := 0
  seq := Seq.ready
  rsp := none
  pending := []
  msgCap := Config.msgCapExample
  msgEpoch := 0

end Sys2Proof.Machine
end

