-- ==== Sys2Proof/Machine/Ops.lean ====
section
/-! DEFINITION. The named operations every meaning is written over: byte order, the message memory, the word registers,
the response, taking a fault (R254) with the one way out of it (reset, R259, R290), and the skeleton that executes a
command (R240, R258). -/

namespace Sys2Proof.Machine

abbrev Result := Host.Outcome State Fault Refusal

/-! ### Byte order -/

/-- `be32(b0, b1, b2, b3)`: a Word from four bytes, the first the most significant (R12, R62). -/
def be32 (b0 b1 b2 b3 : Byte) : Word :=
  BitVec.ofNat 32 (b0.toNat * 2 ^ 24 + b1.toNat * 2 ^ 16 + b2.toNat * 2 ^ 8 + b3.toNat)

/-- `zext_32` of a byte (R12). -/
def zext32 (b : Byte) : Word := BitVec.ofNat 32 b.toNat

/-! ### The message memory -/

/-- The byte that a MSGWR has written to address a since the last reset, if one has. -/
def Memory.lookup : Memory → Nat → Option Byte
  | [], _ => none
  | p :: m, a => if p.1 = a then some p.2 else Memory.lookup m a

/-- Write one byte, keeping the addresses strictly rising. -/
def Memory.store : Memory → Nat → Byte → Memory
  | [], a, v => [(a, v)]
  | p :: m, a, v =>
    if a < p.1 then (a, v) :: p :: m
    else if a = p.1 then (a, v) :: m
    else p :: Memory.store m a v

/-- `MemRead(MSG, a, 1)` (R12): the byte last written; a byte not written since the last reset is the free value of U5,
"any value, stable until written" (R293; log 4). -/
def State.msgByte (s : State) (a : Nat) : Byte :=
  (Memory.lookup s.msg a).getD (Config.msgAfterReset s.msgEpoch a)

/-- `MemWrite(MSG, a, 1, v)` (R12). -/
def State.writeMsg (s : State) (a : Nat) (v : Byte) : State := { s with msg := Memory.store s.msg a v }

/-! ### The word registers -/

/-- Read `X[i]` (R21). -/
def State.readX (s : State) (i : XReg) : Word := s.x[i.val]

/-- `X[i] <- v` (R21). -/
def State.writeX (s : State) (i : XReg) (v : Word) : State := { s with x := s.x.set i.val v }

/-! ### The response -/

/-- `respond(ok, rdata)` (R12, R91). -/
def State.respond (s : State) (ok : Bool) (rdata : Word) : State := { s with rsp := some ⟨ok, rdata⟩ }

/-- What a halted core does with a command it does not answer: (0, 0x00000000), and no state changes (R258). -/
def State.refuse (s : State) : State := s.respond false 0

/-! ### Taking a fault, and leaving the halted state -/

/-- The fault codes of R250. -/
def FaultKind.code : FaultKind → BitVec 4
  | .invalidLength => 1
  | .paddingAlignment => 2
  | .indexOutOfRange => 3
  | .scheduleContract => 4
  | .illegalCommand => 5
  | .illegalOperand => 6

/-- The fault entry (R254), applied to the state as it was when the command was accepted: every write the command has made
so far is discarded, the four fault registers are written, and the response is (0, 0). -/
def State.raise (s : State) (f : FaultKind) (c : Command) : State :=
  { s with fault := true, err := f.code, errCmd := c.cmd, errData := c.wdata, rsp := some ⟨false, 0⟩ }

/-- Reset (R290, R291, R293): every piece of state takes its reset value, the parameter and the host's events stay, and the
message bytes are unspecified anew (log 5, log 12). It is the only way out of the halted state (R259). -/
def State.afterReset (s : State) : State :=
  { State.reset with pending := s.pending, msgCap := s.msgCap, msgEpoch := s.msgEpoch + 1 }

/-! ### Executing a command -/

/-- What a command's own pseudocode comes to: the state with all its writes and the `rdata` it responds with, or the first
fault it raises (R256). -/
abbrev Effect := Except FaultKind (State × Word)

/-- The execution of one accepted and decoded command (R240): a halted core refuses it (R258), a `raise` discards every
write of the command and enters the fault (R254), and otherwise all writes commit together with the response. `ERR_CMD` and
`ERR_DATA` are the words of the command (log 19). -/
def runCommand (i : Instr) (s : State) (e : Effect) : Result :=
  if s.fault then .next s.refuse
  else
    match e with
    | .ok p => .next (p.1.respond true p.2)
    | .error f => .next (s.raise f (encode i))

/-- The same for the two commands a halted core still answers, NOP and RDREG, which write no state (R258): the value is
answered in either case, and a raise is the fault entry of a core that runs and the refusal of a halted one. -/
def runReadOnly (i : Instr) (s : State) (e : Except FaultKind Word) : Result :=
  match e with
  | .ok r => .next (s.respond true r)
  | .error f => if s.fault then .next s.refuse else .next (s.raise f (encode i))

end Sys2Proof.Machine
end

