-- ==== Sys2Proof/Machine/Flags.lean ====
section
/-! DEFINITION. The flags of the core and what is computed from them: `SCHED_VALID` and the STATUS register (R32), clearing
the memos (R38), and the status pins (R43, R90). There are no condition codes (R32). -/

namespace Sys2Proof.Machine

/-- `SCHED_VALID := (SCHED_FILL = 64)` (R32). -/
def State.schedValid (s : State) : Bool := decide (s.schedFill = 64)

/-- The STATUS register: bit 0 `PAD_VALID`, bit 1 `SCHED_VALID`, bit 2 `DIGEST_VALID`, bit 3 `FAULT`, bits 31:4 read as 0
(R32). -/
def State.status (s : State) : Word :=
  BitVec.ofNat 32 (s.padValid.toNat + 2 * s.schedValid.toNat + 4 * s.digestValid.toNat + 8 * s.fault.toNat)

/-- A message change invalidates the memos (R38). -/
def State.clearMemos (s : State) : State :=
  { s with padValid := false, blkCount := 0, w := [], schedIdx := 0, digestValid := false }

/-- `busy = (SEQ.phase ≠ IDLE)` (R35, R43). -/
def State.busy (s : State) : Bool := !decide (s.seq.phase = .idle)

/-- `{H[0], H[1], …, H[7]}`, `H[0]` in bits 255:224 (R43, R231). -/
def digestBits (h : Words8) : BitVec 256 :=
  h.w0 ++ h.w1 ++ h.w2 ++ h.w3 ++ h.w4 ++ h.w5 ++ h.w6 ++ h.w7

/-- The output pins of R90. `digest` is given only while `digest_valid = 1`: its value otherwise is unspecified (U7; log 9). -/
structure Pins where
  cmdReady : Bool
  rspValid : Bool
  rspOk : Bool
  rspRdata : Word
  busy : Bool
  fault : Bool
  digestValid : Bool
  digest : Option (BitVec 256)
  deriving DecidableEq, Repr

/-- The pins as functions of the state (R43, R90). `rsp_ok` and `rsp_rdata` are shown as 0 while `rsp_valid` is 0 (log 9). -/
def State.pins (s : State) : Pins where
  cmdReady := !s.busy
  rspValid := s.rsp.isSome
  rspOk := (s.rsp.map Response.ok).getD false
  rspRdata := (s.rsp.map Response.rdata).getD 0
  busy := s.busy
  fault := s.fault
  digestValid := s.digestValid
  digest := if s.digestValid then some (digestBits s.h) else none

end Sys2Proof.Machine
end

