-- ==== Sys2Proof/Machine/Operands.lean ====
section
/-! DEFINITION. Every operand form: the byte lanes of the data word (R64), the two constructors of a Word (R122, R123) with
the operands of WLDI and WLDB (R138, R139), and the register address map (R36). -/

namespace Sys2Proof.Machine

/-- Lane k of a data word, `wdata[31−8k : 24−8k]`, k = 0 .. 3: lane 0 is the first byte (R64, R139). -/
def lane (wdata : Word) (k : Nat) : Byte := BitVec.ofNat 8 (bits wdata (31 - 8 * k) (24 - 8 * k))

/-- `wdata[7:0]`, the byte of a MSGWR; bits 31:8 are ignored (R64, R167). -/
def lowByte (wdata : Word) : Byte := BitVec.ofNat 8 (bits wdata 7 0)

/-- `word_from_int(v)`: fails outside [0, 2^32) (R122). -/
def wordFromInt (v : Nat) : Option Word := if v < 2 ^ 32 then some (BitVec.ofNat 32 v) else none

/-- `word_from_bytes(bs)`: fails for every length but 4 (R123). -/
def wordFromBytes : List Byte → Option Word
  | [b0, b1, b2, b3] => some (be32 b0 b1 b2 b3)
  | _ => none

/-- The 40-bit integer operand of WLDI, `v = {hi8, wdata}` (R94, R138). -/
def wldiOperand (hi8 : Nat) (wdata : Word) : Nat := hi8 * 2 ^ 32 + wdata.toNat

/-- The byte list that WLDB offers (R139): lanes 0 .. nb3−1 when nb3 ≤ 4. The bus carries four bytes only, so a list of 5, 6
or 7 bytes has no bytes to show beyond them (0 stands there; the list's length makes it fail whatever they are). -/
def wldbOperand (nb3 : Nat) (wdata : Word) : List Byte :=
  (List.range nb3).map (fun k => if k < 4 then lane wdata k else 0)

/-- The registers of the address map (R36). -/
inductive Reg where
  | status
  | err
  | errCmd
  | errData
  | msgBitlen
  | blkCount
  | schedIdx
  | schedFill
  | msgCap
  | h (j : Fin 8)
  | v (j : Fin 8)
  | x (i : XReg)
  | w (t : Fin 64)
  | k (i : Fin 64)
  | hinit (j : Fin 8)
  deriving DecidableEq, Repr

/-- The register at an address, none when the address is unmapped (R36). -/
def regAt (r8 : Nat) : Option Reg :=
  if r8 = 0x00 then some .status
  else if r8 = 0x01 then some .err
  else if r8 = 0x02 then some .errCmd
  else if r8 = 0x03 then some .errData
  else if r8 = 0x04 then some .msgBitlen
  else if r8 = 0x05 then some .blkCount
  else if r8 = 0x06 then some .schedIdx
  else if r8 = 0x07 then some .schedFill
  else if r8 = 0x08 then some .msgCap
  else if h : 0x10 ≤ r8 ∧ r8 ≤ 0x17 then some (.h ⟨r8 - 0x10, by omega⟩)
  else if h : 0x18 ≤ r8 ∧ r8 ≤ 0x1F then some (.v ⟨r8 - 0x18, by omega⟩)
  else if h : 0x20 ≤ r8 ∧ r8 ≤ 0x23 then some (.x ⟨r8 - 0x20, by omega⟩)
  else if h : 0x40 ≤ r8 ∧ r8 ≤ 0x7F then some (.w ⟨r8 - 0x40, by omega⟩)
  else if h : 0x80 ≤ r8 ∧ r8 ≤ 0xBF then some (.k ⟨r8 - 0x80, by omega⟩)
  else if h : 0xC0 ≤ r8 ∧ r8 ≤ 0xC7 then some (.hinit ⟨r8 - 0xC0, by omega⟩)
  else none

/-- `W[t]`, read only where t < `SCHED_FILL` (R28): every caller has checked that. -/
def State.schedWord (s : State) (t : Nat) : Word := s.w.getD t 0

/-- The value of a register, zero-extended to 32 bits (R36, R222). -/
def State.regValue (s : State) : Reg → Word
  | .status => s.status
  | .err => BitVec.ofNat 32 s.err.toNat
  | .errCmd => s.errCmd
  | .errData => s.errData
  | .msgBitlen => s.msgBitlen
  | .blkCount => s.blkCount
  | .schedIdx => BitVec.ofNat 32 s.schedIdx.toNat
  | .schedFill => BitVec.ofNat 32 s.schedFill
  | .msgCap => BitVec.ofNat 32 s.msgCap
  | .h j => s.h.get j
  | .v j => s.v.get j
  | .x i => s.readX i
  | .w t => s.schedWord t.val
  | .k i => roundConstant i.val
  | .hinit j => HINIT.get j

/-- The read of RDREG (R222): IllegalOperand for an unmapped address, then ScheduleContract for a schedule entry that is not
valid, then the value. -/
def State.readReg (s : State) (r8 : Nat) : Except FaultKind Word :=
  match regAt r8 with
  | none => .error .illegalOperand
  | some r =>
    if 0x40 ≤ r8 ∧ r8 ≤ 0x7F ∧ s.schedFill ≤ r8 - 0x40 then .error .scheduleContract
    else .ok (s.regValue r)

end Sys2Proof.Machine
end

