-- ==== Sys2Proof/Machine/WordFunctions.lean ====
section
/-! DEFINITION. The Word functions of the word_arithmetic_unit (R120 to R135), which the schedule expander and the compression
rounds use too. All are pure. -/

namespace Sys2Proof.Machine

/-- `add(x, y) = (x + y) mod 2^32` (R125). -/
def addW (x y : Word) : Word := BitVec.ofNat 32 (x.toNat + y.toNat)

/-- The variadic `add`: the left fold, the receiver alone when there is no further operand (R125). -/
def addAllW (x : Word) (ys : List Word) : Word := ys.foldl addW x

/-- `shr(x, n) = floor(x / 2^n)`, for 0 ≤ n ≤ 32 and no other n (R126, U11). -/
def shrW (x : Word) (n : Fin 33) : Word := BitVec.ofNat 32 (x.toNat / 2 ^ n.val)

/-- `rotr(x, n) = (floor(x / 2^n) + (x mod 2^n) · 2^(32−n)) mod 2^32`, for 0 ≤ n ≤ 32 and no other n (R127, U11). The sum and the
product are written with their terms exchanged, which keeps the kernel from counting a product up in unary. -/
def rotrW (x : Word) (n : Fin 33) : Word :=
  BitVec.ofNat 32 (2 ^ (32 - n.val) * (x.toNat % 2 ^ n.val) + x.toNat / 2 ^ n.val)

/-- `xor(x, y) = x XOR y` (R128). -/
def xorW (x y : Word) : Word := x ^^^ y

/-- The variadic `xor` (R128). -/
def xorAllW (x : Word) (ys : List Word) : Word := ys.foldl xorW x

/-- `ch(x, y, z) = (x AND y) XOR ((NOT32 x) AND z)` (R129). -/
def chW (x y z : Word) : Word := (x &&& y) ^^^ (~~~x &&& z)

/-- `maj(x, y, z) = (x AND y) XOR (x AND z) XOR (y AND z)` (R130). -/
def majW (x y z : Word) : Word := (x &&& y) ^^^ (x &&& z) ^^^ (y &&& z)

/-- `sigma0(x) = rotr(x, 7) XOR rotr(x, 18) XOR shr(x, 3)` (R131). -/
def sigma0W (x : Word) : Word := rotrW x 7 ^^^ rotrW x 18 ^^^ shrW x 3

/-- `sigma1(x) = rotr(x, 17) XOR rotr(x, 19) XOR shr(x, 10)` (R132). -/
def sigma1W (x : Word) : Word := rotrW x 17 ^^^ rotrW x 19 ^^^ shrW x 10

/-- `usigma0(x) = rotr(x, 2) XOR rotr(x, 13) XOR rotr(x, 22)` (R133). -/
def usigma0W (x : Word) : Word := rotrW x 2 ^^^ rotrW x 13 ^^^ rotrW x 22

/-- `usigma1(x) = rotr(x, 6) XOR rotr(x, 11) XOR rotr(x, 25)` (R134). -/
def usigma1W (x : Word) : Word := rotrW x 6 ^^^ rotrW x 11 ^^^ rotrW x 25

/-- `eq(x, y)`: equality by exact value (R135). -/
def eqW (x y : Word) : Bool := decide (x = y)

end Sys2Proof.Machine
end

