-- ==== Sys2Proof/Machine/Compression.lean ====
section
/-! DEFINITION. The compression_round_pipeline (R200 to R209): the round function, the compression of a block, and CLOAD,
ROUND, CFOLD, COMPRESS. -/

namespace Sys2Proof.Machine

/-- `T1 = usigma1(e) +32 ch(e, f, g) +32 h +32 K[i] +32 w` (R201). -/
def roundT1 (i : Nat) (e f g h w : Word) : Word :=
  addAllW (usigma1W e) [chW e f g, h, roundConstant i, w]

/-- `T2 = usigma0(a) +32 maj(a, b, c)` (R201). -/
def roundT2 (a b c : Word) : Word := addW (usigma0W a) (majW a b c)

/-- `round(i, (a, b, c, d, e, f, g, h), w)` (R201): every right side uses the values from before the round. -/
def roundFn (i : Nat) (v : Words8) (w : Word) : Words8 :=
  match v with
  | ⟨a, b, c, d, e, f, g, h⟩ =>
    let t1 := roundT1 i e f g h w
    let t2 := roundT2 a b c
    ⟨addW t1 t2, a, b, c, addW d t1, e, f, g⟩

/-- Element-wise modular sum, the feed-forward (R202, R206). -/
def addW8 (u v : Words8) : Words8 :=
  ⟨addW u.w0 v.w0, addW u.w1 v.w1, addW u.w2 v.w2, addW u.w3 v.w3,
    addW u.w4 v.w4, addW u.w5 v.w5, addW u.w6 v.w6, addW u.w7 v.w7⟩

/-- Rounds 0 .. n−1 of a schedule (R202). -/
def roundsFn (n : Nat) (v : Words8) (sched : List Word) : Words8 :=
  (List.range n).foldl (fun u i => roundFn i u (sched.getD i 0)) v

/-- `compress(Hin, S)` (R202). -/
def compressFn (hin : Words8) (sched : List Word) : Words8 := addW8 hin (roundsFn 64 hin sched)

/-- The register writes of CLOAD (R204). -/
def State.cloadWrites (s : State) : State := { s with v := s.h }

/-- The register writes of ROUND i (R205). -/
def State.roundWrites (s : State) (i : Nat) : State := { s with v := roundFn i s.v (s.schedWord i) }

/-- The register writes of CFOLD (R206). -/
def State.cfoldWrites (s : State) : State := { s with h := addW8 s.h s.v, digestValid := false }

/-- The register writes of ROUND 0, ROUND 1, …, ROUND 63, in that order (R207). -/
def State.roundAllWrites (s : State) : State := (List.range 64).foldl State.roundWrites s

/-- The register writes of COMPRESS: CLOAD, the 64 rounds, CFOLD (R207). -/
def State.compressWrites (s : State) : State := s.cloadWrites.roundAllWrites.cfoldWrites

/-- CLOAD (R204). -/
def execCload (wdata : Word) (s : State) : Result :=
  runCommand (.cload wdata) s (.ok (s.cloadWrites, 0))

/-- ROUND (R205): ScheduleContract when `W[t6]` is not valid. -/
def execRound (t6 : Nat) (wdata : Word) (s : State) : Result :=
  runCommand (.round t6 wdata) s
    (if s.schedFill ≤ t6 then .error .scheduleContract else .ok (s.roundWrites t6, 0))

/-- CFOLD (R206). -/
def execCfold (wdata : Word) (s : State) : Result :=
  runCommand (.cfold wdata) s (.ok (s.cfoldWrites, 0))

/-- COMPRESS (R207): ScheduleContract when the schedule is not complete, before the first write. -/
def execCompress (wdata : Word) (s : State) : Result :=
  runCommand (.compress wdata) s
    (if s.schedFill ≠ 64 then .error .scheduleContract else .ok (s.compressWrites, 0))

end Sys2Proof.Machine
end

