-- ==== Sys2Proof/Machine/Padder.lean ====
section
/-! DEFINITION. The message_padder (R160 to R171): the padded view, the padding step, and MSGWR, MSGRD, PAD, PADRD. -/

namespace Sys2Proof.Machine

/-- ℓ, the message length in bits (R17, R25). -/
def State.bitLen (s : State) : Nat := s.msgBitlen.toNat

/-- L = ℓ / 8, the message length in bytes, meant where ℓ mod 8 = 0 (R17, R161). -/
def State.byteLen (s : State) : Nat := s.bitLen / 8

/-- `N = floor((L + 8) / 64) + 1` for a message of L bytes (R161). -/
def blockCountOf (byteLen : Nat) : Nat := (byteLen + 8) / 64 + 1

/-- N, the block count of the present message (R161). -/
def State.blocks (s : State) : Nat := blockCountOf s.byteLen

/-- P = 64 · N, the padded length in bytes (R161). -/
def State.paddedLen (s : State) : Nat := 64 * s.blocks

/-- `PB(j)`, meant for 0 ≤ j < P and ℓ mod 8 = 0 (R162). -/
def State.paddedByte (s : State) (j : Nat) : Byte :=
  if j < s.byteLen then s.msgByte j
  else if j = s.byteLen then 0x80
  else if j < s.paddedLen - 8 then 0x00
  else BitVec.ofNat 8 (s.bitLen / 2 ^ (8 * (s.paddedLen - 1 - j)) % 256)

/-- The writes of the padding step when it computes: `BLK_COUNT <- N; PAD_VALID <- 1` (R169). -/
def State.padWrites (s : State) : State :=
  { s with blkCount := BitVec.ofNat 32 s.blocks, padValid := true }

/-- The padding step `ensure_pad()` (R169). -/
def State.ensurePad (s : State) : Except FaultKind State :=
  if s.padValid then .ok s
  else if s.bitLen % 8 ≠ 0 then .error .paddingAlignment
  else .ok s.padWrites

/-- MSGWR (R167): allowed at any address below `MSG_CAP`; always clears the memos (R38). -/
def execMsgwr (a24 : Nat) (wdata : Word) (s : State) : Result :=
  runCommand (.msgwr a24 wdata) s
    (if s.msgCap ≤ a24 then .error .illegalOperand
    else .ok ((s.writeMsg a24 (lowByte wdata)).clearMemos, 0))

/-- MSGRD (R168): the length register plays no part. -/
def execMsgrd (a24 : Nat) (wdata : Word) (s : State) : Result :=
  runCommand (.msgrd a24 wdata) s
    (if s.msgCap ≤ a24 then .error .illegalOperand
    else .ok (s, zext32 (s.msgByte a24)))

/-- PAD (R165). -/
def execPad (wdata : Word) (s : State) : Result :=
  runCommand (.pad wdata) s
    (match s.ensurePad with
    | .error f => .error f
    | .ok t => .ok (t, 0))

/-- PADRD (R166): PaddingAlignment first, then IllegalOperand for j ≥ 64 · `BLK_COUNT`. -/
def execPadrd (a24 : Nat) (wdata : Word) (s : State) : Result :=
  runCommand (.padrd a24 wdata) s
    (match s.ensurePad with
    | .error f => .error f
    | .ok t =>
      if 64 * t.blkCount.toNat ≤ a24 then .error .illegalOperand
      else .ok (t, zext32 (t.paddedByte a24)))

end Sys2Proof.Machine
end

