-- ==== Sys2Proof/Machine/Expander.lean ====
section
/-! DEFINITION. The schedule_expander (R180 to R188): the words of a block, the recurrence, and WLOAD, WSTEP, EXPAND. -/

namespace Sys2Proof.Machine

/-- `S(idx)[t]` for t = 0 .. 15: a big-endian Word of four padded bytes (R181). -/
def State.blockWord (s : State) (idx t : Nat) : Word :=
  be32 (s.paddedByte (64 * idx + 4 * t)) (s.paddedByte (64 * idx + 4 * t + 1))
    (s.paddedByte (64 * idx + 4 * t + 2)) (s.paddedByte (64 * idx + 4 * t + 3))

/-- The recurrence (R182): the entry for index t, 16 ≤ t ≤ 63, from a schedule whose entries below t are given. -/
def scheduleNext (w : List Word) (t : Nat) : Word :=
  addAllW (sigma1W (w.getD (t - 2) 0)) [w.getD (t - 7) 0, sigma0W (w.getD (t - 15) 0), w.getD (t - 16) 0]

/-- The register writes of WLOAD idx (R184): `W[0..15]` are the block's words, `W[16..63]` become invalid. -/
def State.wloadWrites (s : State) (idx : Nat) : State :=
  { s with w := (List.range 16).map (s.blockWord idx), schedIdx := BitVec.ofNat 24 idx }

/-- The register writes of WSTEP t, where t = `SCHED_FILL`: `W[t]` becomes valid and `SCHED_FILL` becomes t + 1 (R185). -/
def State.wstepWrites (s : State) (t : Nat) : State := { s with w := s.w ++ [scheduleNext s.w t] }

/-- The register writes of WSTEP 16, WSTEP 17, …, WSTEP 63, in that order (R186). -/
def State.wstepAllWrites (s : State) : State := (List.range' 16 48).foldl State.wstepWrites s

/-- The register writes of EXPAND idx after its padding step (R186). -/
def State.expandWrites (s : State) (idx : Nat) : State := (s.wloadWrites idx).wstepAllWrites

/-- WLOAD (R184): PaddingAlignment first, then IndexOutOfRange. -/
def execWload (a24 : Nat) (wdata : Word) (s : State) : Result :=
  runCommand (.wload a24 wdata) s
    (match s.ensurePad with
    | .error f => .error f
    | .ok t =>
      if t.blkCount.toNat ≤ a24 then .error .indexOutOfRange
      else .ok (t.wloadWrites a24, 0))

/-- WSTEP (R185): IllegalOperand when t < 16, then ScheduleContract when t is not the next entry. -/
def execWstep (t6 : Nat) (wdata : Word) (s : State) : Result :=
  runCommand (.wstep t6 wdata) s
    (if t6 < 16 then .error .illegalOperand
    else if t6 ≠ s.schedFill then .error .scheduleContract
    else .ok (s.wstepWrites t6, 0))

/-- EXPAND (R186): both checks come before the first write. -/
def execExpand (a24 : Nat) (wdata : Word) (s : State) : Result :=
  runCommand (.expand a24 wdata) s
    (match s.ensurePad with
    | .error f => .error f
    | .ok t =>
      if t.blkCount.toNat ≤ a24 then .error .indexOutOfRange
      else .ok (t.expandWrites a24, 0))

end Sys2Proof.Machine
end

