-- ==== Sys2Proof/Machine/Control.lean ====
section
/-! DEFINITION. The top-level control (R220 to R224, R230, R240): NOP, RDREG, WRREG, INIT, HASH. -/

namespace Sys2Proof.Machine

/-- NOP (R221): answered by a halted core too (R258). -/
def execNop (wdata : Word) (s : State) : Result := runReadOnly (.nop wdata) s (.ok 0)

/-- RDREG (R222): answered by a halted core too where it would not fault (R258). -/
def execRdreg (r8 : Nat) (wdata : Word) (s : State) : Result :=
  runReadOnly (.rdreg r8 wdata) s (s.readReg r8)

/-- The register writes of WRREG to `MSG_BITLEN` (R223, R38). -/
def State.setBitlen (s : State) (v : Word) : State := { s with msgBitlen := v }.clearMemos

/-- WRREG (R223): IllegalOperand for any address but 0x04, then for a length above 8 · `MSG_CAP`. -/
def execWrreg (r8 : Nat) (wdata : Word) (s : State) : Result :=
  runCommand (.wrreg r8 wdata) s
    (if r8 ≠ 0x04 then .error .illegalOperand
    else if 8 * s.msgCap < wdata.toNat then .error .illegalOperand
    else .ok (s.setBitlen wdata, 0))

/-- The register writes of INIT (R224). -/
def State.initWrites (s : State) : State := { s with h := HINIT, digestValid := false }

/-- INIT (R224). -/
def execInit (wdata : Word) (s : State) : Result :=
  runCommand (.init wdata) s (.ok (s.initWrites, 0))

/-- One turn of step 3 of HASH: the register writes of EXPAND idx, then those of COMPRESS (R230). -/
def State.hashBlock (s : State) (idx : Nat) : State := (s.expandWrites idx).compressWrites

/-- Steps 3 and 4 of HASH: every block in increasing order, then `DIGEST_VALID <- 1` (R230). -/
def State.hashBlocks (s : State) : State :=
  { (List.range s.blkCount.toNat).foldl State.hashBlock s with digestValid := true }

/-- HASH (R230): the padding step of a state that INIT has written decides the one fault, before anything is kept. -/
def execHash (wdata : Word) (s : State) : Result :=
  runCommand (.hash wdata) s
    (match s.initWrites.ensurePad with
    | .error f => .error f
    | .ok t => .ok (t.hashBlocks, 0))

end Sys2Proof.Machine
end

