-- ==== Sys2Proof/Machine/WordUnit.lean ====
section
/-! DEFINITION. The thirteen commands of the word_arithmetic_unit (R138 to R151). Operands are read before the destination
is written, and a command that completes responds with the Word written (WEQ: with the comparison). -/

namespace Sys2Proof.Machine

/-- `X[rd] <- r; respond(1, r)` (R151). -/
def State.setResult (s : State) (rd : XReg) (r : Word) : State × Word := (s.writeX rd r, r)

/-- WLDI (R138): InvalidLength when the 40-bit integer is no Word. -/
def execWldi (rd : XReg) (hi8 : Nat) (wdata : Word) (s : State) : Result :=
  runCommand (.wldi rd hi8 wdata) s
    (match wordFromInt (wldiOperand hi8 wdata) with
    | none => .error .invalidLength
    | some r => .ok (s.setResult rd r))

/-- WLDB (R139): InvalidLength when the byte list has not four bytes. -/
def execWldb (rd : XReg) (nb3 : Nat) (wdata : Word) (s : State) : Result :=
  runCommand (.wldb rd nb3 wdata) s
    (match wordFromBytes (wldbOperand nb3 wdata) with
    | none => .error .invalidLength
    | some r => .ok (s.setResult rd r))

/-- ADD (R140). -/
def execAdd (rd ra rb : XReg) (wdata : Word) (s : State) : Result :=
  runCommand (.add rd ra rb wdata) s (.ok (s.setResult rd (addW (s.readX ra) (s.readX rb))))

/-- SHR (R141): IllegalOperand when n6 > 32. -/
def execShr (rd ra : XReg) (n6 : Nat) (wdata : Word) (s : State) : Result :=
  runCommand (.shr rd ra n6 wdata) s
    (if h : n6 ≤ 32 then .ok (s.setResult rd (shrW (s.readX ra) ⟨n6, Nat.lt_succ_of_le h⟩))
    else .error .illegalOperand)

/-- ROTR (R142): IllegalOperand when n6 > 32. -/
def execRotr (rd ra : XReg) (n6 : Nat) (wdata : Word) (s : State) : Result :=
  runCommand (.rotr rd ra n6 wdata) s
    (if h : n6 ≤ 32 then .ok (s.setResult rd (rotrW (s.readX ra) ⟨n6, Nat.lt_succ_of_le h⟩))
    else .error .illegalOperand)

/-- XOR (R143). -/
def execXor (rd ra rb : XReg) (wdata : Word) (s : State) : Result :=
  runCommand (.xor rd ra rb wdata) s (.ok (s.setResult rd (xorW (s.readX ra) (s.readX rb))))

/-- CH (R144): ra is x, rb is y, rc is z. -/
def execCh (rd ra rb rc : XReg) (wdata : Word) (s : State) : Result :=
  runCommand (.ch rd ra rb rc wdata) s
    (.ok (s.setResult rd (chW (s.readX ra) (s.readX rb) (s.readX rc))))

/-- MAJ (R145): ra is x, rb is y, rc is z. -/
def execMaj (rd ra rb rc : XReg) (wdata : Word) (s : State) : Result :=
  runCommand (.maj rd ra rb rc wdata) s
    (.ok (s.setResult rd (majW (s.readX ra) (s.readX rb) (s.readX rc))))

/-- SIGMA0 (R146). -/
def execSigma0 (rd ra : XReg) (wdata : Word) (s : State) : Result :=
  runCommand (.sigma0 rd ra wdata) s (.ok (s.setResult rd (sigma0W (s.readX ra))))

/-- SIGMA1 (R147). -/
def execSigma1 (rd ra : XReg) (wdata : Word) (s : State) : Result :=
  runCommand (.sigma1 rd ra wdata) s (.ok (s.setResult rd (sigma1W (s.readX ra))))

/-- USIGMA0 (R148). -/
def execUsigma0 (rd ra : XReg) (wdata : Word) (s : State) : Result :=
  runCommand (.usigma0 rd ra wdata) s (.ok (s.setResult rd (usigma0W (s.readX ra))))

/-- USIGMA1 (R149). -/
def execUsigma1 (rd ra : XReg) (wdata : Word) (s : State) : Result :=
  runCommand (.usigma1 rd ra wdata) s (.ok (s.setResult rd (usigma1W (s.readX ra))))

/-- WEQ (R150): writes nothing; the result exists only in `rdata`. -/
def execWeq (ra rb : XReg) (wdata : Word) (s : State) : Result :=
  runCommand (.weq ra rb wdata) s (.ok (s, if eqW (s.readX ra) (s.readX rb) then 1 else 0))

end Sys2Proof.Machine
end

