-- ==== Sys2Proof/Machine/Dispatch.lean ====
section
/-! DEFINITION. One arm per command of the opcode table (R95), each a direct call of its meaning. -/

namespace Sys2Proof.Machine

def exec (i : Instr) (s : State) : Host.Outcome State Fault Refusal :=
  match i with
  | .nop wdata => Sys2Proof.Machine.execNop wdata s
  | .rdreg r8 wdata => Sys2Proof.Machine.execRdreg r8 wdata s
  | .wrreg r8 wdata => Sys2Proof.Machine.execWrreg r8 wdata s
  | .init wdata => Sys2Proof.Machine.execInit wdata s
  | .hash wdata => Sys2Proof.Machine.execHash wdata s
  | .msgwr a24 wdata => Sys2Proof.Machine.execMsgwr a24 wdata s
  | .msgrd a24 wdata => Sys2Proof.Machine.execMsgrd a24 wdata s
  | .pad wdata => Sys2Proof.Machine.execPad wdata s
  | .padrd a24 wdata => Sys2Proof.Machine.execPadrd a24 wdata s
  | .wload a24 wdata => Sys2Proof.Machine.execWload a24 wdata s
  | .wstep t6 wdata => Sys2Proof.Machine.execWstep t6 wdata s
  | .expand a24 wdata => Sys2Proof.Machine.execExpand a24 wdata s
  | .cload wdata => Sys2Proof.Machine.execCload wdata s
  | .round t6 wdata => Sys2Proof.Machine.execRound t6 wdata s
  | .cfold wdata => Sys2Proof.Machine.execCfold wdata s
  | .compress wdata => Sys2Proof.Machine.execCompress wdata s
  | .wldi rd hi8 wdata => Sys2Proof.Machine.execWldi rd hi8 wdata s
  | .wldb rd nb3 wdata => Sys2Proof.Machine.execWldb rd nb3 wdata s
  | .add rd ra rb wdata => Sys2Proof.Machine.execAdd rd ra rb wdata s
  | .shr rd ra n6 wdata => Sys2Proof.Machine.execShr rd ra n6 wdata s
  | .rotr rd ra n6 wdata => Sys2Proof.Machine.execRotr rd ra n6 wdata s
  | .xor rd ra rb wdata => Sys2Proof.Machine.execXor rd ra rb wdata s
  | .ch rd ra rb rc wdata => Sys2Proof.Machine.execCh rd ra rb rc wdata s
  | .maj rd ra rb rc wdata => Sys2Proof.Machine.execMaj rd ra rb rc wdata s
  | .sigma0 rd ra wdata => Sys2Proof.Machine.execSigma0 rd ra wdata s
  | .sigma1 rd ra wdata => Sys2Proof.Machine.execSigma1 rd ra wdata s
  | .usigma0 rd ra wdata => Sys2Proof.Machine.execUsigma0 rd ra wdata s
  | .usigma1 rd ra wdata => Sys2Proof.Machine.execUsigma1 rd ra wdata s
  | .weq ra rb wdata => Sys2Proof.Machine.execWeq ra rb wdata s

end Sys2Proof.Machine
end

