-- ==== Sys2Proof/Machine/Accept.lean ====
section
/-! DEFINITION. What a step does around `exec`: accepting one command word (R240), a word that is illegal (R97), and an edge that
accepts nothing (R90). -/

namespace Sys2Proof.Machine

/-- A command word that matches no row (R97, R240 step 2): IllegalCommand, and on a halted core the refusal (R258). -/
def State.illegalWord (s : State) (c : Command) : Result :=
  if s.fault then .next s.refuse else .next (s.raise .illegalCommand c)

/-- The execution of one accepted command (R240): decode, then the command's meaning. -/
def State.accept (s : State) (c : Command) : Result :=
  match decode c with
  | .ok i => exec i s
  | .error _ => s.illegalWord c

/-- An edge that accepts nothing: `rsp_valid` is high for one cycle only, and nothing else changes (R90, R271). -/
def State.idleEdge (s : State) : State := { s with rsp := none }

end Sys2Proof.Machine
end

