-- ==== Sys2Proof/Machine/Step.lean ====
section
/-! DEFINITION. One step: one edge at which the host offers the next of its events, or an idle edge (R13, R90, R240, R290). -/

namespace Sys2Proof.Machine

/-- One step. With no event offered the core holds its state (R271). A reset wins whatever the core is doing (R290, R291).
A command is accepted when `cmd_ready = NOT busy` is 1, and otherwise waits (R90, R300; log 1). -/
def step (s : State) : Host.Outcome State Fault Refusal :=
  match s.pending with
  | [] => .next s.idleEdge
  | .reset :: rest => .next ({ s with pending := rest }.afterReset)
  | .command c :: rest => if s.busy then .next s.idleEdge else { s with pending := rest }.accept c

/-- The host offers the opcode-table word next, ahead of whatever else it is going to offer, to a core that is ready (log 2). -/
def State.withFetchWord (s : State) (nbits w : Nat) : State :=
  { s with pending := .command (tableCommand nbits w) :: s.pending, seq := Seq.ready }

end Sys2Proof.Machine
end

