-- ==== Sys2Proof/Machine/Assembler.lean ====
section
/-! DEFINITION. The pseudo-commands of R101: each expands to exactly the commands shown and has no encoding of its own. A
command that the table of R100 gives no data word has the data word 0. -/

namespace Sys2Proof.Machine

inductive Pseudo where
  | rdstatus
  | rderr
  | setlen (nbits : Nat)
  | setlenb (nbytes : Nat)
  | rdh (j : Fin 8)
  | rdv (j : Fin 8)
  | rdx (i : XReg)
  | rdw (t : Fin 64)
  | rdk (i : Fin 64)
  | msgload (addr : Nat) (bs : List Byte)
  | rddigest
  | mov (rd ra : XReg)
  deriving DecidableEq, Repr

/-- `MSGWR addr, b0; MSGWR addr+1, b1; …` (R101). An address of 2^24 or more, which R101 does not exclude, gives a term that has no
encoding (log 16, log 20). -/
def msgloadCommands : Nat → List Byte → List Instr
  | _, [] => []
  | a, b :: bs => .msgwr a (zext32 b) :: msgloadCommands (a + 1) bs

/-- The expansion of a pseudo-command (R101). DESIGN CHOICE (log 20): R100 and R101 bound neither `SETLEN bits` nor
`SETLENB bytes`, and a data word has 32 bits; the value (8 times it for SETLENB) is taken modulo 2^32, so a number of bits
of 2^32 or more assembles to a WRREG of another length. -/
def Pseudo.expand : Pseudo → List Instr
  | .rdstatus => [.rdreg 0x00 0]
  | .rderr => [.rdreg 0x01 0]
  | .setlen n => [.wrreg 0x04 (BitVec.ofNat 32 n)]
  | .setlenb n => [.wrreg 0x04 (BitVec.ofNat 32 (8 * n))]
  | .rdh j => [.rdreg (0x10 + j.val) 0]
  | .rdv j => [.rdreg (0x18 + j.val) 0]
  | .rdx i => [.rdreg (0x20 + i.val) 0]
  | .rdw t => [.rdreg (0x40 + t.val) 0]
  | .rdk i => [.rdreg (0x80 + i.val) 0]
  | .msgload a bs => msgloadCommands a bs
  | .rddigest => (List.range 8).map (fun j => .rdreg (0x10 + j) 0)
  | .mov rd ra => [.shr rd ra 0 0]

/-- Run commands one after another, each on the state the one before it leaves, with the responses they give (R15). The
run ends early only at a stop, and no command stops (R308). -/
def runCommands : List Instr → State → State × List (Option Response)
  | [], s => (s, [])
  | i :: is, s =>
    match exec i s with
    | .next t =>
      let r := runCommands is t
      (r.1, t.rsp :: r.2)
    | .fault _ => (s, [])
    | .refused _ => (s, [])

end Sys2Proof.Machine
end

