-- ==== Sys2Proof/Machine/Digest.lean ====
section
/-! DEFINITION. The digest of a byte message as a function of the message alone (R160, R161, R163, R181, R182, R202, R225), with no state
and no padded view: what the machine's HASH is held against. The bytes of the digest (R231). -/

namespace Sys2Proof.Machine

/-- A natural number as n big-endian bytes, the first the most significant (R10, R62). -/
def beBytes : Nat → Nat → List Byte
  | 0, _ => []
  | n + 1, v => BitVec.ofNat 8 (v / 2 ^ (8 * n)) :: beBytes n v

/-- The padded message (R161): the message, the byte 0x80 (R63), P − L − 9 zero bytes, and the bit length as a 64-bit
big-endian integer. DESIGN CHOICE (log 21): of a message of 2^64 bits or more, for which the spec gives no behaviour (N14), the
length is taken modulo 2^64. The machine holds no such message. -/
def paddedMessage (m : List Byte) : List Byte :=
  m ++ [0x80] ++ List.replicate (64 * blockCountOf m.length - m.length - 9) 0x00 ++ beBytes 8 (8 * m.length)

/-- Four consecutive bytes of a byte sequence as a big-endian Word (R62, R181). -/
def wordAt (bs : List Byte) (j : Nat) : Word :=
  be32 (bs.getD j 0) (bs.getD (j + 1) 0) (bs.getD (j + 2) 0) (bs.getD (j + 3) 0)

/-- "The block's 16 big-endian 32-bit words, in order" (R181), of block idx of a padded byte sequence (R163). -/
def blockWordsOf (bs : List Byte) (idx : Nat) : List Word :=
  (List.range 16).map (fun t => wordAt bs (64 * idx + 4 * t))

/-- One step of the recurrence of R182, written out on the last sixteen entries of a schedule. -/
def extendSchedule (w : List Word) : List Word :=
  let t := w.length
  w ++ [sigma1W (w.getD (t - 2) 0) + w.getD (t - 7) 0 + sigma0W (w.getD (t - 15) 0) + w.getD (t - 16) 0]

/-- n steps of the recurrence. -/
def extendScheduleN : Nat → List Word → List Word
  | 0, w => w
  | n + 1, w => extendScheduleN n (extendSchedule w)

/-- The 64-word schedule `S(idx)` of block idx of a padded byte sequence (R180 to R182). -/
def scheduleOf (bs : List Byte) (idx : Nat) : List Word := extendScheduleN 48 (blockWordsOf bs idx)

/-- `H_k`: the hash state after the first k blocks (R208). -/
def chain (bs : List Byte) : Nat → Words8
  | 0 => HINIT
  | k + 1 => compressFn (chain bs k) (scheduleOf bs k)

/-- `sha256(m)` (R225). Of a message of 2^64 bits or more it says what the model chose, not the spec (N14; log 21). -/
def sha256 (m : List Byte) : Words8 := chain (paddedMessage m) (blockCountOf m.length)

/-- The eight Words in order, `H[0]` first. -/
def words8List (h : Words8) : List Word := [h.w0, h.w1, h.w2, h.w3, h.w4, h.w5, h.w6, h.w7]

/-- The digest as 32 bytes, each Word most significant byte first (R231). -/
def digestBytes (h : Words8) : List Byte := (words8List h).flatMap (fun w => beBytes 4 w.toNat)

/-- The message the machine holds: bytes 0 .. L−1 of the message memory (R16, R25). -/
def State.message (s : State) : List Byte := (List.range s.byteLen).map s.msgByte

end Sys2Proof.Machine
end

