-- ==== Sys2Proof/Machine/Render.lean ====
section
/-! DEFINITION. The host-side renderings that the spec settles, as lists of characters: `hex` (R136), `bin` (R137), `digest_hex`
(R232). They are no ports of the core (R6; log 18). -/

namespace Sys2Proof.Machine

/-- The hexadecimal digits, lowercase. -/
def hexDigits : List Char :=
  ['0', '1', '2', '3', '4', '5', '6', '7', '8', '9', 'a', 'b', 'c', 'd', 'e', 'f']

/-- n digits of v in a base, most significant digit first, zero-padded. -/
def digitsOf (base : Nat) : Nat → Nat → List Char
  | 0, _ => []
  | n + 1, v => hexDigits.getD (v / base ^ n % base) '0' :: digitsOf base n v

/-- "Exactly 8 lowercase hexadecimal digits, most significant digit first, zero-padded" (R232). -/
def hex8 (x : Word) : List Char := digitsOf 16 8 x.toNat

/-- `hex(x)`: "0x" and 8 lowercase hex digits (R136). -/
def hexW (x : Word) : List Char := '0' :: 'x' :: hex8 x

/-- `bin(x)`: 32 characters, bit 31 first, with no prefix (R137). -/
def binW (x : Word) : List Char := digitsOf 2 32 x.toNat

/-- `digest_hex(H)`: the 8 Words in order with no separators or prefix, 64 characters (R232). -/
def digestHex (h : Words8) : List Char := (words8List h).flatMap hex8

/-- A command as printed by an assembler, `cccccccc:dddddddd` (R100). -/
def printCommand (c : Command) : List Char := hex8 c.cmd ++ ':' :: hex8 c.wdata

end Sys2Proof.Machine
end

