-- ==== Sys2Proof/Machine/Sequencer.lean ====
section
/-! DEFINITION. The hidden sequencer `SEQ` (R35): the composite commands EXPAND, COMPRESS and HASH as the runs of primitive
steps that R186, R207 and R230 list, one primitive step at a time. `exec` runs a composite command as one atomic step (R13), so
no step of the machine enters a busy phase; this file says what happens inside, and the obligations say that both end in
the same state. The order of the steps is the rules'; DESIGN CHOICES (log 7) are which phase a step that R35 names none for stands in,
the `blk` of INIT, PAD and DONE and that of a whole COMPRESS, and the t of a phase that has no index. -/

namespace Sys2Proof.Machine

/-- A composite command (R17). -/
inductive Composite where
  | expand (idx : Nat)
  | compress
  | hash
  deriving DecidableEq, Repr

/-- Where the sequencer starts, once the checks that come before the first write have passed (R186, R207, R230). DESIGN CHOICE
(log 7): a COMPRESS holds `blk = 0` throughout, whichever block the buffer holds. R35 calls `blk` the index of the block being
processed, and R207 says that COMPRESS does not look at `SCHED_IDX`, so the rules leave open which index that is. The `blk` of
HASH's INIT and PAD (0) and of EXPAND's PAD (idx), and t = 0 where R35 gives the phase no index, are choices too. -/
def Composite.first : Composite → Seq
  | .expand idx => ⟨.pad, idx, 0⟩
  | .compress => ⟨.cload, 0, 0⟩
  | .hash => ⟨.init, 0, 0⟩

/-- What follows the last schedule word of a block: EXPAND is done, HASH compresses the block. DESIGN CHOICE (log 7): DONE keeps
the `blk` of the block that was processed last; R35 gives `blk` only while a block is processed. -/
def Composite.afterSchedule : Composite → Nat → Seq
  | .hash, blk => ⟨.cload, blk, 0⟩
  | _, blk => ⟨.done, blk, 0⟩

/-- What follows the feed-forward of a block: HASH goes on to the next block while there is one (R35, R230). DESIGN CHOICE
(log 7): DONE keeps the `blk` of the last block in HASH, N − 1, and COMPRESS's 0; R35 gives `blk` only while a block is processed. -/
def Composite.afterFold : Composite → Nat → Nat → Seq
  | .hash, blk, count => if blk + 1 < count then ⟨.wload, blk + 1, 0⟩ else ⟨.done, blk, 0⟩
  | _, blk, _ => ⟨.done, blk, 0⟩

/-- The last step: HASH sets `DIGEST_VALID` (R230 step 4), and the response is given. -/
def Composite.finish (k : Composite) (s : State) : State :=
  match k with
  | .hash => { s with digestValid := true }.respond true 0
  | _ => s.respond true 0

/-- One primitive step of the sequencer. -/
def State.seqStep (k : Composite) (s : State) : State :=
  let blk := s.seq.blk
  let t := s.seq.t
  match s.seq.phase with
  | .idle => s
  | .init => { s.initWrites with seq := ⟨.pad, blk, 0⟩ }
  | .pad => { (if s.padValid then s else s.padWrites) with seq := ⟨.wload, blk, 0⟩ }
  | .wload => { s.wloadWrites blk with seq := ⟨.wstep, blk, 16⟩ }
  | .wstep =>
    { s.wstepWrites t with seq := if t < 63 then ⟨.wstep, blk, t + 1⟩ else k.afterSchedule blk }
  | .cload => { s.cloadWrites with seq := ⟨.round, blk, 0⟩ }
  | .round => { s.roundWrites t with seq := if t < 63 then ⟨.round, blk, t + 1⟩ else ⟨.cfold, blk, 0⟩ }
  | .cfold => { s.cfoldWrites with seq := k.afterFold blk s.blkCount.toNat }
  | .done => { k.finish s with seq := Seq.ready }

/-- n primitive steps. -/
def State.seqRun (k : Composite) : Nat → State → State
  | 0, s => s
  | n + 1, s => State.seqRun k n (s.seqStep k)

/-- A composite command accepted: the sequencer leaves IDLE. -/
def State.seqStart (s : State) (k : Composite) : State := { s with seq := k.first }

end Sys2Proof.Machine
end

