-- ==== Sys2Proof/Safety.lean ====
section
/-! DEFINITION. The terms in which claims are made: the legal states (R8, R24 to R31, R35), what the memos and the digest flag
promise (R27 to R29), the opcode table as data (R95), which fault a command raises (R250 to R256), which state a command
may write (R37), and the reading of a register address (R36). None of it is used by the machine. -/

namespace Sys2Proof.Machine

/-! ### Legal states -/

/-- The states that the rules allow between two commands. -/
structure State.Legal (s : State) : Prop where
  /-- 1 ≤ `MSG_CAP` ≤ 16777144 (R8) -/
  cap : 1 ≤ s.msgCap ∧ s.msgCap ≤ Config.msgCapMax
  /-- the memory is in its canonical form -/
  memory : Memory.wf s.msg
  /-- and lists only addresses below `MSG_CAP` (R24, R68) -/
  addresses : ∀ p ∈ s.msg, p.1 < s.msgCap
  /-- 0 ≤ ℓ ≤ 8 · `MSG_CAP` (R25) -/
  length : s.bitLen ≤ 8 * s.msgCap
  /-- `PAD_VALID = 1`: ℓ is whole bytes and `BLK_COUNT = N` (R27) -/
  padSet : s.padValid = true → s.bitLen % 8 = 0 ∧ s.blkCount.toNat = s.blocks
  /-- `PAD_VALID = 0`: `BLK_COUNT = 0` (R27) -/
  padClear : s.padValid = false → s.blkCount = 0
  /-- `SCHED_FILL` ∈ {0, 16, 17, …, 64} (R28) -/
  fill : s.schedFill = 0 ∨ 16 ≤ s.schedFill ∧ s.schedFill ≤ 64
  /-- an empty schedule buffer belongs to block 0 (R28, R38) -/
  emptyIdx : s.schedFill = 0 → s.schedIdx = 0
  /-- a filled one to a block of the present message, whose padding is known (R28, R184) -/
  filledIdx : s.schedFill ≠ 0 → s.padValid = true ∧ s.schedIdx.toNat < s.blocks
  /-- `FAULT = 0`: the error registers are 0 (R31) -/
  running : s.fault = false → s.err = 0 ∧ s.errCmd = 0 ∧ s.errData = 0
  /-- `FAULT = 1`: `ERR` holds one of the codes 1 .. 6 (R31, R250) -/
  halted : s.fault = true → 1 ≤ s.err.toNat ∧ s.err.toNat ≤ 6
  /-- the core is ready for a command (R35) -/
  ready : s.seq = Seq.ready
  /-- "Whenever `ok = 0`, `rdata = 0x00000000`" (R91) -/
  response : ∀ r, s.rsp = some r → r.ok = false → r.rdata = 0

/-- What the memos and the digest flag promise about the present message: the schedule buffer holds the first `SCHED_FILL`
words of the schedule of block `SCHED_IDX` (R28), and `DIGEST_VALID = 1` means that `H` is the digest (R29). -/
structure State.MemosTrue (s : State) : Prop where
  schedule : s.schedFill ≠ 0 → s.w = (scheduleOf (paddedMessage s.message) s.schedIdx.toNat).take s.schedFill
  digest : s.digestValid = true → s.bitLen % 8 = 0 ∧ s.h = sha256 s.message

/-! ### The opcode table -/

/-- A row of R95. -/
structure OpcodeRow where
  mnemonic : String
  mask : Word
  pattern : Word
  deriving DecidableEq, Repr

/-- Rows 0x00 .. 0x22 of R95. -/
def opcodeRowsA : List OpcodeRow :=
  [⟨"NOP", 0xFFFFFFFF, 0x00000000⟩, ⟨"RDREG", 0xFFFFFF00, 0x01000000⟩, ⟨"WRREG", 0xFFFFFF00, 0x02000000⟩,
   ⟨"INIT", 0xFFFFFFFF, 0x03000000⟩, ⟨"HASH", 0xFFFFFFFF, 0x04000000⟩, ⟨"MSGWR", 0xFF000000, 0x10000000⟩,
   ⟨"MSGRD", 0xFF000000, 0x11000000⟩, ⟨"PAD", 0xFFFFFFFF, 0x12000000⟩, ⟨"PADRD", 0xFF000000, 0x13000000⟩,
   ⟨"WLOAD", 0xFF000000, 0x20000000⟩, ⟨"WSTEP", 0xFFFFFFC0, 0x21000000⟩, ⟨"EXPAND", 0xFF000000, 0x22000000⟩]

/-- Rows 0x30 .. 0x4C of R95. -/
def opcodeRowsB : List OpcodeRow :=
  [⟨"CLOAD", 0xFFFFFFFF, 0x30000000⟩, ⟨"ROUND", 0xFFFFFFC0, 0x31000000⟩, ⟨"CFOLD", 0xFFFFFFFF, 0x32000000⟩,
   ⟨"COMPRESS", 0xFFFFFFFF, 0x33000000⟩, ⟨"WLDI", 0xFF3FFF00, 0x40000000⟩, ⟨"WLDB", 0xFF3FFFF8, 0x41000000⟩,
   ⟨"ADD", 0xFF03FFFF, 0x42000000⟩, ⟨"SHR", 0xFF0FFFC0, 0x43000000⟩, ⟨"ROTR", 0xFF0FFFC0, 0x44000000⟩,
   ⟨"XOR", 0xFF03FFFF, 0x45000000⟩, ⟨"CH", 0xFF00FFFF, 0x46000000⟩, ⟨"MAJ", 0xFF00FFFF, 0x47000000⟩,
   ⟨"SIGMA0", 0xFF0FFFFF, 0x48000000⟩, ⟨"SIGMA1", 0xFF0FFFFF, 0x49000000⟩, ⟨"USIGMA0", 0xFF0FFFFF, 0x4A000000⟩,
   ⟨"USIGMA1", 0xFF0FFFFF, 0x4B000000⟩, ⟨"WEQ", 0xFFC3FFFF, 0x4C000000⟩]

/-- The 29 rows of R95, each with its mask and match. -/
def opcodeTable : List OpcodeRow := opcodeRowsA ++ opcodeRowsB

/-- `(cmd AND mask_c) = match_c` (R95). -/
abbrev OpcodeRow.covers (r : OpcodeRow) (cmd : Word) : Prop := cmd &&& r.mask = r.pattern

/-! ### Faults -/

/-- The block count once the padding step has succeeded (R169). -/
def State.countAfterPad (s : State) : Nat := if s.padValid then s.blkCount.toNat else s.blocks

/-- The condition of R252: the padding step fails. -/
abbrev State.padFails (s : State) : Prop := s.padValid = false ∧ s.bitLen % 8 ≠ 0

/-- A mapped register address (R36). -/
abbrev mapped (r8 : Nat) : Prop := r8 ≤ 0x08 ∨ 0x10 ≤ r8 ∧ r8 ≤ 0x23 ∨ 0x40 ≤ r8 ∧ r8 ≤ 0xC7

/-- A schedule entry's address that cannot be read: 0x40 + t with t ≥ `SCHED_FILL` (R36, R203). -/
abbrev State.unreadable (s : State) (r8 : Nat) : Prop := 0x40 ≤ r8 ∧ r8 ≤ 0x7F ∧ s.schedFill ≤ r8 - 0x40

/-- The fault a command raises in a core that runs, none when it completes: the causes of R251, R252, R253, R203 and R255 in the
order of R256. -/
def State.faultOf (s : State) : Instr → Option FaultKind
  | .nop _ => none
  | .rdreg r8 _ =>
    if ¬ mapped r8 then some .illegalOperand
    else if s.unreadable r8 then some .scheduleContract else none
  | .wrreg r8 d => if r8 ≠ 0x04 ∨ 8 * s.msgCap < d.toNat then some .illegalOperand else none
  | .init _ => none
  | .hash _ => if s.padFails then some .paddingAlignment else none
  | .msgwr a _ => if s.msgCap ≤ a then some .illegalOperand else none
  | .msgrd a _ => if s.msgCap ≤ a then some .illegalOperand else none
  | .pad _ => if s.padFails then some .paddingAlignment else none
  | .padrd j _ =>
    if s.padFails then some .paddingAlignment
    else if 64 * s.countAfterPad ≤ j then some .illegalOperand else none
  | .wload idx _ =>
    if s.padFails then some .paddingAlignment
    else if s.countAfterPad ≤ idx then some .indexOutOfRange else none
  | .wstep t _ =>
    if t < 16 then some .illegalOperand
    else if t ≠ s.schedFill then some .scheduleContract else none
  | .expand idx _ =>
    if s.padFails then some .paddingAlignment
    else if s.countAfterPad ≤ idx then some .indexOutOfRange else none
  | .cload _ => none
  | .round i _ => if s.schedFill ≤ i then some .scheduleContract else none
  | .cfold _ => none
  | .compress _ => if s.schedFill ≠ 64 then some .scheduleContract else none
  | .wldi _ hi8 _ => if hi8 ≠ 0 then some .invalidLength else none
  | .wldb _ nb3 _ => if nb3 ≠ 4 then some .invalidLength else none
  | .add _ _ _ _ => none
  | .shr _ _ n _ => if 32 < n then some .illegalOperand else none
  | .rotr _ _ n _ => if 32 < n then some .illegalOperand else none
  | .xor _ _ _ _ => none
  | .ch _ _ _ _ _ => none
  | .maj _ _ _ _ _ => none
  | .sigma0 _ _ _ => none
  | .sigma1 _ _ _ => none
  | .usigma0 _ _ _ => none
  | .usigma1 _ _ _ => none
  | .weq _ _ _ => none

/-- The row of the matrix of R260: the `ERR` codes of the faults a command can raise. -/
def canRaise : Instr → List (BitVec 4)
  | .nop _ | .init _ | .cload _ | .cfold _ => []
  | .rdreg _ _ => [4, 6]
  | .wrreg _ _ => [6]
  | .hash _ => [2]
  | .msgwr _ _ | .msgrd _ _ => [6]
  | .pad _ => [2]
  | .padrd _ _ => [2, 6]
  | .wload _ _ | .expand _ _ => [2, 3]
  | .wstep _ _ => [4, 6]
  | .round _ _ | .compress _ => [4]
  | .wldi _ _ _ | .wldb _ _ _ => [1]
  | .shr _ _ _ _ | .rotr _ _ _ _ => [6]
  | .add _ _ _ _ | .xor _ _ _ _ | .ch _ _ _ _ _ | .maj _ _ _ _ _ => []
  | .sigma0 _ _ _ | .sigma1 _ _ _ | .usigma0 _ _ _ | .usigma1 _ _ _ | .weq _ _ _ => []

/-! ### Which command writes which state -/

/-- The columns of the matrix of R37. -/
inductive Column where
  | x
  | h
  | v
  | msg
  | msgBitlen
  | pad
  | sched
  | digestValid
  deriving DecidableEq, Repr

/-- The state of a column is unchanged; of the message memory, every byte reads as before. -/
def Column.same : Column → State → State → Prop
  | .x, s, t => ∀ i, t.readX i = s.readX i
  | .h, s, t => t.h = s.h
  | .v, s, t => t.v = s.v
  | .msg, s, t => ∀ a, t.msgByte a = s.msgByte a
  | .msgBitlen, s, t => t.msgBitlen = s.msgBitlen
  | .pad, s, t => t.padValid = s.padValid ∧ t.blkCount = s.blkCount
  | .sched, s, t => t.w = s.w ∧ t.schedIdx = s.schedIdx
  | .digestValid, s, t => t.digestValid = s.digestValid

/-- The row of the matrix of R37: the columns a command may write. -/
def mayWrite : Instr → List Column
  | .nop _ | .rdreg _ _ | .msgrd _ _ | .weq _ _ _ => []
  | .wrreg _ _ => [.msgBitlen, .pad, .sched, .digestValid]
  | .init _ => [.h, .digestValid]
  | .hash _ => [.h, .v, .pad, .sched, .digestValid]
  | .msgwr _ _ => [.msg, .pad, .sched, .digestValid]
  | .pad _ | .padrd _ _ => [.pad]
  | .wload _ _ | .expand _ _ => [.pad, .sched]
  | .wstep _ _ => [.sched]
  | .cload _ | .round _ _ => [.v]
  | .cfold _ => [.h, .digestValid]
  | .compress _ => [.h, .v, .digestValid]
  | .wldi _ _ _ | .wldb _ _ _ | .add _ _ _ _ | .shr _ _ _ _ | .rotr _ _ _ _ | .xor _ _ _ _ => [.x]
  | .ch _ _ _ _ _ | .maj _ _ _ _ _ => [.x]
  | .sigma0 _ _ _ | .sigma1 _ _ _ | .usigma0 _ _ _ | .usigma1 _ _ _ => [.x]

/-- The thirteen commands of the word_arithmetic_unit (R151). -/
def isWauCommand : Instr → Bool
  | .wldi _ _ _ | .wldb _ _ _ | .add _ _ _ _ | .shr _ _ _ _ | .rotr _ _ _ _ | .xor _ _ _ _ => true
  | .ch _ _ _ _ _ | .maj _ _ _ _ _ => true
  | .sigma0 _ _ _ | .sigma1 _ _ _ | .usigma0 _ _ _ | .usigma1 _ _ _ | .weq _ _ _ => true
  | .nop _ | .rdreg _ _ | .wrreg _ _ | .init _ | .hash _ | .msgwr _ _ | .msgrd _ _ | .pad _ | .padrd _ _ => false
  | .wload _ _ | .wstep _ _ | .expand _ _ | .cload _ | .round _ _ | .cfold _ | .compress _ => false

/-! ### Command sequences -/

/-- `EXPAND 0; COMPRESS; EXPAND 1; COMPRESS; …; EXPAND n−1; COMPRESS` (R234). -/
def manualBlocks (n : Nat) : List Instr :=
  (List.range n).flatMap (fun idx => [.expand idx 0, .compress 0])

/-- `INIT; PAD; EXPAND 0; COMPRESS; …; EXPAND n−1; COMPRESS` (R234). -/
def manualSequence (n : Nat) : List Instr := .init 0 :: .pad 0 :: manualBlocks n

/-- The primitive commands of one block: `WLOAD idx; WSTEP 16; …; WSTEP 63; CLOAD; ROUND 0; …; ROUND 63; CFOLD` (R234). -/
def primitiveBlock (idx : Nat) : List Instr :=
  .wload idx 0 :: ((List.range' 16 48).map (fun t => .wstep t 0) ++
    .cload 0 :: ((List.range 64).map (fun i => .round i 0) ++ [.cfold 0]))

/-- The same sequence with every EXPAND and COMPRESS replaced by its primitive commands (R234). -/
def primitiveSequence (n : Nat) : List Instr :=
  .init 0 :: .pad 0 :: (List.range n).flatMap primitiveBlock

/-- How many primitive steps the sequencer takes for a composite command on a message of n blocks (R186, R207, R230). -/
def Composite.steps (k : Composite) (n : Nat) : Nat :=
  match k with
  | .expand _ => 51
  | .compress => 67
  | .hash => 115 * n + 3

/-- The command whose composite effect it is. -/
def Composite.instr (k : Composite) (wdata : Word) : Instr :=
  match k with
  | .expand idx => .expand idx wdata
  | .compress => .compress wdata
  | .hash => .hash wdata

end Sys2Proof.Machine
end

