-- ==== Sys2Proof/Certificates/Slice0/Obligations.lean ====
section
/-! DEFINITION. The statements for the provers: one `def Obligations.<Name> : Prop` each. R<n> are the rules of spec/, log <n> the
rows of notes/assumptions/. Where a statement says `exec i s = .next { s with … }`, the fields not named are the frame: they are
what they were, and so is every byte of the message memory. -/

open Sys2Proof
open Sys2Proof.Machine

/-! ### Encoding -/

/-- Words written out from R93, R95 and the examples of R100, one or more for each format, decode to their commands. -/
def Obligations.SpecWordsDecode : Prop :=
  decode ⟨0x42840000, 0⟩ = .ok (.add 2 0 1 0) ∧
  decode ⟨0x44400007, 0⟩ = .ok (.rotr 1 0 7 0) ∧
  decode ⟨0x46C60000, 0⟩ = .ok (.ch 3 0 1 2 0) ∧
  decode ⟨0x10000002, 0x63⟩ = .ok (.msgwr 2 0x63) ∧
  decode ⟨0x02000004, 24⟩ = .ok (.wrreg 4 24) ∧
  decode ⟨0x40000000, 0x6A09E667⟩ = .ok (.wldi 0 0 0x6A09E667) ∧
  decode ⟨0x41400004, 0x61626380⟩ = .ok (.wldb 1 4 0x61626380) ∧
  decode ⟨0x04000000, 0⟩ = .ok (.hash 0) ∧
  decode ⟨0x21000010, 0⟩ = .ok (.wstep 16 0) ∧
  decode ⟨0x22FFFFFF, 0⟩ = .ok (.expand 0xFFFFFF 0) ∧
  decode ⟨0x3100003F, 0⟩ = .ok (.round 63 0) ∧
  decode ⟨0x4C440000, 0⟩ = .error .mustBeZero ∧
  decode ⟨0x4D000000, 0⟩ = .error .unassignedOpcode

/-- R93, R94, R100: decoding the words a well-formed command assembles to gives the command back, with every operand at every
value its field admits. -/
def Obligations.DecodeOfEncodeIsIdentity : Prop :=
  ∀ i : Instr, i.wellFormed = true → decode (encode i) = .ok i

/-- R93, R94, R100: a command that the decoder reads is well formed, and assembling it gives the very words back, so that no bit
of a command word is dropped. -/
def Obligations.EncodeOfDecodeIsIdentity : Prop :=
  ∀ (c : Command) (i : Instr), decode c = .ok i → i.wellFormed = true ∧ encode i = c

/-- R96: a word is command c, with its fields, exactly when c's row covers it, at most one row of R95 covers a word, and a word that
no row covers is illegal. -/
def Obligations.DecodeFollowsOpcodeTable : Prop :=
  ∀ c : Command,
    (∀ r ∈ opcodeTable, r.covers c.cmd ↔ ∃ i, decode c = .ok i ∧ i.mnemonic = r.mnemonic ∧ encode i = c) ∧
    (∀ r ∈ opcodeTable, ∀ q ∈ opcodeTable, r.covers c.cmd → q.covers c.cmd → r = q) ∧
    ((∃ e, decode c = .error e) ↔ ∀ r ∈ opcodeTable, ¬ r.covers c.cmd)

/-- R97 with R254: in a core that runs, a word that no row of R95 covers raises IllegalCommand, code 5, and nothing but the fault
registers and the response changes. -/
def Obligations.IllegalWordsFault : Prop :=
  ∀ (s : State) (c : Command) (rest : List Event),
    s.pending = .command c :: rest → s.seq = Seq.ready → s.fault = false →
    (∀ r ∈ opcodeTable, ¬ r.covers c.cmd) →
    step s = .next { s with
      pending := rest, fault := true, err := 5, errCmd := c.cmd, errData := c.wdata, rsp := some ⟨false, 0⟩ }

/-! ### The step -/

/-- R240: a core that is ready takes the command word the host offers next and accepts it, halted or not, and when the word decodes
to i the step is the execution of i; that the offer is an entry of `pending` is the model's choice (log 1). -/
def Obligations.StepRunsDecodedCommand : Prop :=
  ∀ (s : State) (c : Command) (rest : List Event),
    s.pending = .command c :: rest → s.seq = Seq.ready →
    step s = { s with pending := rest }.accept c ∧
    ∀ i, decode c = .ok i → step s = exec i { s with pending := rest }

/-- R290, R291, R293, R42: a reset wins in every state, busy or halted too, and leaves the values of R42 with no response. What
the message bytes then are is unspecified: the model's free value for that reset (log 4, log 5), and the parameter stays
(log 3). -/
def Obligations.StepTakesReset : Prop :=
  ∀ (s : State) (rest : List Event), s.pending = .reset :: rest →
    ∃ t, step s = .next t ∧
      (∀ i, t.readX i = 0) ∧ t.h = HINIT ∧ (∀ j, t.v.get j = 0) ∧ t.msgBitlen = 0 ∧ t.padValid = false ∧
      t.blkCount = 0 ∧ t.schedFill = 0 ∧ t.schedIdx = 0 ∧ t.digestValid = false ∧ t.fault = false ∧
      t.err = 0 ∧ t.errCmd = 0 ∧ t.errData = 0 ∧ t.seq = ⟨.idle, 0, 0⟩ ∧ t.status = 0 ∧ t.rsp = none ∧
      t.pins.busy = false ∧ t.pins.cmdReady = true ∧ t.pins.rspValid = false ∧
      (∀ a, t.msgByte a = Config.msgAfterReset (s.msgEpoch + 1) a) ∧
      t.pending = rest ∧ t.msgCap = s.msgCap

/-- R90, R271: an edge at which the host offers nothing, or offers a command to a busy core, accepts nothing; the response of the
edge before is gone (log 8), and nothing else changes. -/
def Obligations.StepAcceptsNothingWhenIdleOrBusy : Prop :=
  ∀ s : State,
    (s.pending = [] → step s = .next { s with rsp := none }) ∧
    (∀ c rest, s.pending = .command c :: rest → s.seq.phase ≠ .idle → step s = .next { s with rsp := none })

/-- R308: every command word and every operand value has a defined outcome in every state: no step stops with a fault or a
refusal of the model. -/
def Obligations.NoStepStops : Prop :=
  ∀ s : State, ∃ t, step s = .next t

/-- R258: what a halted core does with any command word, legal or not. -/
def Obligations.HaltedCoreAnswersOnlyReads : Prop :=
  ∀ (s : State) (c : Command), s.fault = true →
    s.accept c = .next { s with
      rsp := some (
        if c.cmd = 0x00000000 then ⟨true, 0⟩
        else if c.cmd &&& 0xFFFFFF00 = 0x01000000 ∧ mapped (bits c.cmd 7 0) ∧ ¬ s.unreadable (bits c.cmd 7 0) then
          ⟨true, ((regAt (bits c.cmd 7 0)).map s.regValue).getD 0⟩
        else ⟨false, 0⟩) }

/-- R30, R31, R259: no step but a reset takes a core out of the halted state or touches the record of the first fault, or any
other state. -/
def Obligations.HaltedUntilReset : Prop :=
  ∀ s t : State, s.fault = true → (∀ rest, s.pending ≠ .reset :: rest) → step s = .next t →
    t.fault = true ∧ t.err = s.err ∧ t.errCmd = s.errCmd ∧ t.errData = s.errData ∧
    t = { s with pending := t.pending, rsp := t.rsp }

/-! ### Invariants -/

/-- R42, R292: the state after reset is legal, and what its memos promise holds (there is nothing they promise). -/
def Obligations.ResetStateIsLegal : Prop :=
  State.reset.Legal ∧ State.reset.MemosTrue

/-- The values of R42, and that no schedule entry can be read; `MSG` is the free value of the model (log 4), the capacity is that of
the spec's examples (log 3). -/
def Obligations.ResetHoldsStatedValues : Prop :=
  (∀ i, State.reset.readX i = 0) ∧
  (∀ j, State.reset.h.get j = HINIT.get j) ∧
  (∀ j, State.reset.v.get j = 0) ∧
  State.reset.msgBitlen = 0 ∧ State.reset.padValid = false ∧ State.reset.blkCount = 0 ∧
  State.reset.schedFill = 0 ∧ State.reset.schedIdx = 0 ∧ State.reset.digestValid = false ∧
  State.reset.fault = false ∧ State.reset.err = 0 ∧ State.reset.errCmd = 0 ∧ State.reset.errData = 0 ∧
  State.reset.seq = ⟨.idle, 0, 0⟩ ∧ State.reset.status = 0 ∧
  (∀ t, t < 64 → State.reset.readReg (0x40 + t) = .error .scheduleContract) ∧
  (∀ a, State.reset.msgByte a = Config.msgAfterReset 0 a)

/-- Every step keeps the legal states of R8, R24, R25, R27, R28, R31, R35, R91: the memory's canonical form and its range, the length's
range, the padder's memo, the fill count, the owner of the schedule, the error registers, the idle sequencer and the
response. -/
def Obligations.StepKeepsLegal : Prop :=
  ∀ s t : State, s.Legal → step s = .next t → t.Legal

/-- R27, R28, R29, R38: in every legal state that any run reaches, the schedule buffer holds words of the schedule of block
`SCHED_IDX` of the PRESENT message, and `DIGEST_VALID = 1` means that `H` is its digest: no step makes a memo stale. -/
def Obligations.StepKeepsMemosTrue : Prop :=
  ∀ s t : State, s.Legal → s.MemosTrue → step s = .next t → t.MemosTrue

/-! ### Faults -/

/-- R254 with the causes and the order of R250 to R256: a command that faults changes nothing but the four fault registers, which hold
the code, the command word and the data word, and responds (0, 0); so does a word that no command has; the pin follows. -/
def Obligations.FaultEntryIsPrecise : Prop :=
  (∀ (i : Instr) (s : State) (f : FaultKind), s.fault = false → s.faultOf i = some f →
    exec i s = .next { s with
      fault := true, err := f.code, errCmd := (encode i).cmd, errData := (encode i).wdata, rsp := some ⟨false, 0⟩ }) ∧
  (∀ (s : State) (c : Command) (e : Illegal), s.fault = false → decode c = .error e →
    s.accept c = .next { s with fault := true, err := 5, errCmd := c.cmd, errData := c.wdata, rsp := some ⟨false, 0⟩ }) ∧
  (∀ s : State, s.pins.fault = s.fault) ∧
  FaultKind.code .invalidLength = 1 ∧ FaultKind.code .paddingAlignment = 2 ∧ FaultKind.code .indexOutOfRange = 3 ∧
  FaultKind.code .scheduleContract = 4 ∧ FaultKind.code .illegalCommand = 5 ∧ FaultKind.code .illegalOperand = 6

/-- R240, R91: in a core that runs, a command whose rule raises no fault completes: it responds with ok = 1 and the core goes on
running, with the fault registers as they were. -/
def Obligations.CommandsCompleteUnlessTheyFault : Prop :=
  ∀ (i : Instr) (s : State), s.fault = false → s.faultOf i = none →
    ∃ t r, exec i s = .next t ∧ t.rsp = some ⟨true, r⟩ ∧ t.fault = false ∧
      t.err = s.err ∧ t.errCmd = s.errCmd ∧ t.errData = s.errData

/-- R260: a command raises no fault outside its row of the matrix, and each x of the matrix can happen: some well-formed command
of that mnemonic raises that fault in some legal state. -/
def Obligations.FaultMatrixHolds : Prop :=
  (∀ (i : Instr) (s t : State), s.fault = false → exec i s = .next t → t.fault = true → t.err ∈ canRaise i) ∧
  (∀ (i : Instr) (k : BitVec 4), k ∈ canRaise i →
    ∃ (j : Instr) (s t : State), j.mnemonic = i.mnemonic ∧ j.wellFormed = true ∧ s.Legal ∧ s.fault = false ∧
      exec j s = .next t ∧ t.fault = true ∧ t.err = k)

/-- R37: whatever a command does, it changes no column of the matrix that its row leaves blank; a command that faults, or that a
halted core is given, changes no column at all; and no command touches `SEQ`, the parameter or the host's events. Every byte
of the message memory reads as before unless the command is MSGWR. -/
def Obligations.WriteMatrixHolds : Prop :=
  ∀ (i : Instr) (s t : State), exec i s = .next t →
    (∀ c : Column, c ∉ mayWrite i → c.same s t) ∧
    (t.fault = true → ∀ c : Column, c.same s t) ∧
    (t.fault = false → t.err = s.err ∧ t.errCmd = s.errCmd ∧ t.errData = s.errData) ∧
    t.seq = s.seq ∧ t.msgCap = s.msgCap ∧ t.msgEpoch = s.msgEpoch ∧ t.pending = s.pending

/-! ### The word arithmetic unit -/

/-- R140, R125: the word of ADD; ADD writes the sum modulo 2^32, responds with it and changes nothing else. -/
def Obligations.AddCompletes : Prop :=
  ∀ (rd ra rb : XReg) (d : Word) (s : State), s.fault = false →
    decode ⟨BitVec.ofNat 32 (0x42 * 2 ^ 24 + rd.val * 2 ^ 22 + ra.val * 2 ^ 20 + rb.val * 2 ^ 18), d⟩ = .ok (.add rd ra rb d) ∧
    ∃ r : Word, r.toNat = ((s.readX ra).toNat + (s.readX rb).toNat) % 2 ^ 32 ∧
      exec (.add rd ra rb d) s = .next { s with x := s.x.set rd.val r, rsp := some ⟨true, r⟩ }

/-- R143, R128: the word of XOR; XOR writes the bitwise exclusive-or, responds with it and changes nothing else. -/
def Obligations.XorCompletes : Prop :=
  ∀ (rd ra rb : XReg) (d : Word) (s : State), s.fault = false →
    decode ⟨BitVec.ofNat 32 (0x45 * 2 ^ 24 + rd.val * 2 ^ 22 + ra.val * 2 ^ 20 + rb.val * 2 ^ 18), d⟩ = .ok (.xor rd ra rb d) ∧
    ∃ r : Word, (∀ k, k < 32 → r.getLsbD k = ((s.readX ra).getLsbD k != (s.readX rb).getLsbD k)) ∧
      exec (.xor rd ra rb d) s = .next { s with x := s.x.set rd.val r, rsp := some ⟨true, r⟩ }

/-- R144, R145, R129, R130: the words of CH and MAJ; bit by bit, CH takes the bit of y where x is 1 and of z where it is 0, and MAJ is 1 when at least two of
the three bits are 1; each responds with the Word written and changes nothing else. -/
def Obligations.ChMajComplete : Prop :=
  ∀ (rd ra rb rc : XReg) (d : Word) (s : State), s.fault = false →
    decode ⟨BitVec.ofNat 32 (0x46 * 2 ^ 24 + rd.val * 2 ^ 22 + ra.val * 2 ^ 20 + rb.val * 2 ^ 18 + rc.val * 2 ^ 16), d⟩ =
      .ok (.ch rd ra rb rc d) ∧
    decode ⟨BitVec.ofNat 32 (0x47 * 2 ^ 24 + rd.val * 2 ^ 22 + ra.val * 2 ^ 20 + rb.val * 2 ^ 18 + rc.val * 2 ^ 16), d⟩ =
      .ok (.maj rd ra rb rc d) ∧
    (∃ r : Word,
      (∀ k, k < 32 → r.getLsbD k =
        if (s.readX ra).getLsbD k then (s.readX rb).getLsbD k else (s.readX rc).getLsbD k) ∧
      exec (.ch rd ra rb rc d) s = .next { s with x := s.x.set rd.val r, rsp := some ⟨true, r⟩ }) ∧
    (∃ r : Word,
      (∀ k, k < 32 → r.getLsbD k =
        decide (2 ≤ ((s.readX ra).getLsbD k).toNat + ((s.readX rb).getLsbD k).toNat + ((s.readX rc).getLsbD k).toNat)) ∧
      exec (.maj rd ra rb rc d) s = .next { s with x := s.x.set rd.val r, rsp := some ⟨true, r⟩ })

/-- R141, R142, R126, R127: for 0 ≤ n ≤ 32, bit k of SHR's result is bit k + n of the source (0 beyond bit 31) and bit k of ROTR's is
bit (k + n) mod 32; each responds with the Word written and changes nothing else. -/
def Obligations.ShiftsComplete : Prop :=
  ∀ (rd ra : XReg) (n : Nat) (d : Word) (s : State), s.fault = false → n ≤ 32 →
    (∃ r : Word,
      r.toNat = (s.readX ra).toNat / 2 ^ n ∧
      (∀ k, k < 32 → r.getLsbD k = (s.readX ra).getLsbD (k + n)) ∧
      exec (.shr rd ra n d) s = .next { s with x := s.x.set rd.val r, rsp := some ⟨true, r⟩ }) ∧
    (∃ r : Word,
      (∀ k, k < 32 → r.getLsbD k = (s.readX ra).getLsbD ((k + n) % 32)) ∧
      exec (.rotr rd ra n d) s = .next { s with x := s.x.set rd.val r, rsp := some ⟨true, r⟩ })

/-- R153, R141, R142: the amounts 33 .. 63 raise IllegalOperand and write nothing. -/
def Obligations.ShiftsBeyond32Fault : Prop :=
  ∀ (rd ra : XReg) (n : Nat) (d : Word) (s : State), s.fault = false → 33 ≤ n → n ≤ 63 →
    exec (.shr rd ra n d) s = .next { s with
      fault := true, err := 6, errData := d, rsp := some ⟨false, 0⟩
      errCmd := BitVec.ofNat 32 (0x43 * 2 ^ 24 + rd.val * 2 ^ 22 + ra.val * 2 ^ 20 + n) } ∧
    exec (.rotr rd ra n d) s = .next { s with
      fault := true, err := 6, errData := d, rsp := some ⟨false, 0⟩
      errCmd := BitVec.ofNat 32 (0x44 * 2 ^ 24 + rd.val * 2 ^ 22 + ra.val * 2 ^ 20 + n) }

/-- R146 to R149, R131 to R134: the words of the four commands and their functions bit by bit; each command responds with the Word written and changes nothing
else. -/
def Obligations.SigmasComplete : Prop :=
  ∀ (rd ra : XReg) (d : Word) (s : State), s.fault = false →
    decode ⟨BitVec.ofNat 32 (0x48 * 2 ^ 24 + rd.val * 2 ^ 22 + ra.val * 2 ^ 20), d⟩ = .ok (.sigma0 rd ra d) ∧
    decode ⟨BitVec.ofNat 32 (0x49 * 2 ^ 24 + rd.val * 2 ^ 22 + ra.val * 2 ^ 20), d⟩ = .ok (.sigma1 rd ra d) ∧
    decode ⟨BitVec.ofNat 32 (0x4A * 2 ^ 24 + rd.val * 2 ^ 22 + ra.val * 2 ^ 20), d⟩ = .ok (.usigma0 rd ra d) ∧
    decode ⟨BitVec.ofNat 32 (0x4B * 2 ^ 24 + rd.val * 2 ^ 22 + ra.val * 2 ^ 20), d⟩ = .ok (.usigma1 rd ra d) ∧
    (∃ r : Word,
      (∀ k, k < 32 → r.getLsbD k =
        (((s.readX ra).getLsbD ((k + 7) % 32) != (s.readX ra).getLsbD ((k + 18) % 32)) != (s.readX ra).getLsbD (k + 3))) ∧
      exec (.sigma0 rd ra d) s = .next { s with x := s.x.set rd.val r, rsp := some ⟨true, r⟩ }) ∧
    (∃ r : Word,
      (∀ k, k < 32 → r.getLsbD k =
        (((s.readX ra).getLsbD ((k + 17) % 32) != (s.readX ra).getLsbD ((k + 19) % 32)) != (s.readX ra).getLsbD (k + 10))) ∧
      exec (.sigma1 rd ra d) s = .next { s with x := s.x.set rd.val r, rsp := some ⟨true, r⟩ }) ∧
    (∃ r : Word,
      (∀ k, k < 32 → r.getLsbD k =
        (((s.readX ra).getLsbD ((k + 2) % 32) != (s.readX ra).getLsbD ((k + 13) % 32)) !=
          (s.readX ra).getLsbD ((k + 22) % 32))) ∧
      exec (.usigma0 rd ra d) s = .next { s with x := s.x.set rd.val r, rsp := some ⟨true, r⟩ }) ∧
    (∃ r : Word,
      (∀ k, k < 32 → r.getLsbD k =
        (((s.readX ra).getLsbD ((k + 6) % 32) != (s.readX ra).getLsbD ((k + 11) % 32)) !=
          (s.readX ra).getLsbD ((k + 25) % 32))) ∧
      exec (.usigma1 rd ra d) s = .next { s with x := s.x.set rd.val r, rsp := some ⟨true, r⟩ })

/-- R138, R139, R122, R123, R64: WLDI of an integer below 2^32 (hi8 = 0) and WLDB of four bytes (nb3 = 4) both write `wdata`, respond with
it and change nothing else. -/
def Obligations.LoadsComplete : Prop :=
  ∀ (rd : XReg) (d : Word) (s : State), s.fault = false →
    exec (.wldi rd 0 d) s = .next { s with x := s.x.set rd.val d, rsp := some ⟨true, d⟩ } ∧
    exec (.wldb rd 4 d) s = .next { s with x := s.x.set rd.val d, rsp := some ⟨true, d⟩ }

/-- R251, R138, R139: WLDI with hi8 ≠ 0 (v ≥ 2^32) and WLDB with nb3 ≠ 4 raise InvalidLength and write nothing. -/
def Obligations.LoadsOfWrongLengthFault : Prop :=
  (∀ (rd : XReg) (hi8 : Nat) (d : Word) (s : State), s.fault = false → 0 < hi8 → hi8 < 256 →
    exec (.wldi rd hi8 d) s = .next { s with
      fault := true, err := 1, errData := d, rsp := some ⟨false, 0⟩
      errCmd := BitVec.ofNat 32 (0x40 * 2 ^ 24 + rd.val * 2 ^ 22 + hi8) }) ∧
  (∀ (rd : XReg) (nb3 : Nat) (d : Word) (s : State), s.fault = false → nb3 ≠ 4 → nb3 < 8 →
    exec (.wldb rd nb3 d) s = .next { s with
      fault := true, err := 1, errData := d, rsp := some ⟨false, 0⟩
      errCmd := BitVec.ofNat 32 (0x41 * 2 ^ 24 + rd.val * 2 ^ 22 + nb3) })

/-- R150, R135: the word of WEQ; WEQ answers 1 when the two registers hold the same number and 0 otherwise, and writes nothing. -/
def Obligations.WeqAnswersEquality : Prop :=
  ∀ (ra rb : XReg) (d : Word) (s : State), s.fault = false →
    decode ⟨BitVec.ofNat 32 (0x4C * 2 ^ 24 + ra.val * 2 ^ 20 + rb.val * 2 ^ 18), d⟩ = .ok (.weq ra rb d) ∧
    ((s.readX ra).toNat = (s.readX rb).toNat → exec (.weq ra rb d) s = .next { s with rsp := some ⟨true, 1⟩ }) ∧
    ((s.readX ra).toNat ≠ (s.readX rb).toNat → exec (.weq ra rb d) s = .next { s with rsp := some ⟨true, 0⟩ })

/-- R127, R152 (law 6): `rotr` by a fixed amount is a bijection with inverse `rotr` by 32 − n, amounts add modulo 32, and rotating by 0
or 32 gives x. -/
def Obligations.RotrIsBijective : Prop :=
  (∀ n : Fin 33, Function.Bijective (fun x => rotrW x n)) ∧
  (∀ (x : Word) (n : Fin 33), rotrW (rotrW x n) ⟨32 - n.val, by omega⟩ = x) ∧
  (∀ (x : Word) (m n : Fin 33), rotrW (rotrW x m) n = rotrW x ⟨(m.val + n.val) % 32, by omega⟩) ∧
  (∀ x : Word, rotrW x 0 = x ∧ rotrW x 32 = x)

/-- R152 (law 8): `rotr`, `shr` and the four sigma functions distribute over XOR and map 0 to 0. -/
def Obligations.SigmasAreLinear : Prop :=
  (∀ (x y : Word) (n : Fin 33),
    rotrW (xorW x y) n = xorW (rotrW x n) (rotrW y n) ∧ shrW (xorW x y) n = xorW (shrW x n) (shrW y n)) ∧
  (∀ x y : Word,
    sigma0W (xorW x y) = xorW (sigma0W x) (sigma0W y) ∧ sigma1W (xorW x y) = xorW (sigma1W x) (sigma1W y) ∧
    usigma0W (xorW x y) = xorW (usigma0W x) (usigma0W y) ∧ usigma1W (xorW x y) = xorW (usigma1W x) (usigma1W y)) ∧
  sigma0W 0 = 0 ∧ sigma1W 0 = 0 ∧ usigma0W 0 = 0 ∧ usigma1W 0 = 0

/-- R151, R307: a word arithmetic command depends on `X[0..3]` and on nothing else of a running core: in two running cores with the
same `X` it leaves the same `X`, the same response and the same fault record, whatever the rest of the state is. -/
def Obligations.WauDependsOnlyOnX : Prop :=
  ∀ (i : Instr) (s s' : State), isWauCommand i = true → s.fault = false → s'.fault = false → s.x = s'.x →
    ∃ t t', exec i s = .next t ∧ exec i s' = .next t' ∧ t.x = t'.x ∧ t.rsp = t'.rsp ∧ t.fault = t'.fault ∧
      (t.fault = true → t.err = t'.err ∧ t.errCmd = t'.errCmd ∧ t.errData = t'.errData)

/-! ### The message padder -/

/-- R167, R38: MSGWR at an address below `MSG_CAP` writes `wdata[7:0]` there, leaves every other byte as it was, clears the memos and
changes nothing else; the memory keeps its canonical form. -/
def Obligations.MsgwrStoresOneByte : Prop :=
  ∀ (a : Nat) (d : Word) (s : State), s.fault = false → a < s.msgCap →
    ∃ t, exec (.msgwr a d) s = .next t ∧
      (t.msgByte a).toNat = d.toNat % 256 ∧
      (∀ b, b ≠ a → t.msgByte b = s.msgByte b) ∧
      (Memory.wf s.msg → Memory.wf t.msg) ∧
      t = { s with
        msg := t.msg, padValid := false, blkCount := 0, w := [], schedIdx := 0, digestValid := false
        rsp := some ⟨true, 0⟩ }

/-- R168: MSGRD below `MSG_CAP` answers the byte, zero-extended, and changes nothing; a byte no MSGWR has written is the model's free
value (log 4). -/
def Obligations.MsgrdAnswersByte : Prop :=
  ∀ (a : Nat) (d : Word) (s : State), s.fault = false → a < s.msgCap →
    ∃ r : Word, r.toNat = (s.msgByte a).toNat ∧ exec (.msgrd a d) s = .next { s with rsp := some ⟨true, r⟩ }

/-- R70 (1): a MSGRD returns the byte of the latest earlier MSGWR to its address, and a MSGWR to another address does not disturb
it. -/
def Obligations.MsgrdReturnsLatestMsgwr : Prop :=
  ∀ (a b : Nat) (d e : Word) (s : State), s.fault = false → a < s.msgCap → b < s.msgCap →
    ∃ t r, exec (.msgwr a d) s = .next t ∧ exec (.msgrd b e) t = .next { t with rsp := some ⟨true, r⟩ } ∧
      (b = a → r.toNat = d.toNat % 256) ∧ (b ≠ a → r.toNat = (s.msgByte b).toNat)

/-- R165, R169: the word of PAD; PAD computes `BLK_COUNT = floor((L + 8) / 64) + 1` when the memo is empty and the length is whole bytes, changes nothing
when the memo is set, and raises PaddingAlignment, code 2, otherwise. -/
def Obligations.PadDerivesBlockCount : Prop :=
  ∀ (d : Word) (s : State), s.fault = false →
    decode ⟨0x12000000, d⟩ = .ok (.pad d) ∧
    (s.padValid = true → exec (.pad d) s = .next { s with rsp := some ⟨true, 0⟩ }) ∧
    (s.padValid = false → s.msgBitlen.toNat % 8 = 0 →
      ∃ n : Word, n.toNat = (s.msgBitlen.toNat / 8 + 8) / 64 + 1 ∧
        exec (.pad d) s = .next { s with padValid := true, blkCount := n, rsp := some ⟨true, 0⟩ }) ∧
    (s.padValid = false → s.msgBitlen.toNat % 8 ≠ 0 →
      exec (.pad d) s = .next { s with
        fault := true, err := 2, errCmd := 0x12000000, errData := d, rsp := some ⟨false, 0⟩ })

/-- R166: in a legal state whose length is whole bytes, PADRD j for j < 64 · N answers byte j of the padded message, leaves the padding
memo set and changes nothing else. -/
def Obligations.PadrdAnswersPaddedByte : Prop :=
  ∀ (j : Nat) (d : Word) (s : State), s.Legal → s.fault = false → s.bitLen % 8 = 0 → j < 64 * s.blocks →
    ∃ r : Word, r.toNat = ((paddedMessage s.message).getD j 0).toNat ∧
      exec (.padrd j d) s = .next { s with
        padValid := true, blkCount := BitVec.ofNat 32 s.blocks, rsp := some ⟨true, r⟩ }

/-- R161, R170: the padded message is the message, the byte 0x80, zero bytes and the bit length as a 64-bit big-endian integer; its
length is the least positive multiple of 64 that has room for them; the block counts of R170 and the empty message's block. -/
def Obligations.PaddedMessageShape : Prop :=
  (∀ m : List Byte, 8 * m.length < 2 ^ 64 →
    (paddedMessage m).length = 64 * blockCountOf m.length ∧ 0 < blockCountOf m.length ∧
    (∀ q, q % 64 = 0 → m.length + 9 ≤ q → (paddedMessage m).length ≤ q) ∧
    m.length + 9 ≤ (paddedMessage m).length ∧
    (paddedMessage m).take m.length = m ∧
    (paddedMessage m).getD m.length 0 = 0x80 ∧
    (∀ k, m.length < k → k < (paddedMessage m).length - 8 → (paddedMessage m).getD k 1 = 0x00) ∧
    ((paddedMessage m).drop ((paddedMessage m).length - 8)).foldl (fun n b => 256 * n + b.toNat) 0 = 8 * m.length) ∧
  (∀ n, (blockCountOf n = 1 ↔ n ≤ 55) ∧ (blockCountOf n = 2 ↔ 56 ≤ n ∧ n ≤ 119) ∧
    (blockCountOf n = 3 ↔ 120 ≤ n ∧ n ≤ 183)) ∧
  paddedMessage [] = 0x80 :: List.replicate 63 0x00

/-- R162, R61: the machine's padded view `PB` is the padded message, byte for byte. -/
def Obligations.PaddedViewIsPaddedMessage : Prop :=
  ∀ s : State, s.bitLen % 8 = 0 →
    (paddedMessage s.message).length = s.paddedLen ∧
    ∀ j, j < s.paddedLen → s.paddedByte j = (paddedMessage s.message).getD j 0

/-! ### The schedule expander -/

/-- R184, R181, R62: in a legal state whose length is whole bytes, WLOAD idx for idx < N loads the 16 big-endian words of block idx, sets
`SCHED_IDX`, makes the other entries invalid (`SCHED_FILL = 16`), leaves the padding memo set and changes nothing else. -/
def Obligations.WloadLoadsBlock : Prop :=
  ∀ (idx : Nat) (d : Word) (s : State), s.Legal → s.fault = false → s.bitLen % 8 = 0 → idx < s.blocks →
    ∃ ws : List Word, ws.length = 16 ∧
      (∀ t, t < 16 → (ws.getD t 0).toNat =
        ((paddedMessage s.message).getD (64 * idx + 4 * t) 0).toNat * 2 ^ 24 +
        ((paddedMessage s.message).getD (64 * idx + 4 * t + 1) 0).toNat * 2 ^ 16 +
        ((paddedMessage s.message).getD (64 * idx + 4 * t + 2) 0).toNat * 2 ^ 8 +
        ((paddedMessage s.message).getD (64 * idx + 4 * t + 3) 0).toNat) ∧
      exec (.wload idx d) s = .next { s with
        padValid := true, blkCount := BitVec.ofNat 32 s.blocks, w := ws, schedIdx := BitVec.ofNat 24 idx
        rsp := some ⟨true, 0⟩ }

/-- R185, R182: WSTEP t for 16 ≤ t = `SCHED_FILL` makes `W[t]` the word of the recurrence, adds 1 to `SCHED_FILL` and changes nothing
else. -/
def Obligations.WstepExtendsSchedule : Prop :=
  ∀ (t : Nat) (d : Word) (s : State), s.fault = false → 16 ≤ t → t ≤ 63 → t = s.schedFill →
    ∃ r : Word,
      r = sigma1W (s.w.getD (t - 2) 0) + s.w.getD (t - 7) 0 + sigma0W (s.w.getD (t - 15) 0) + s.w.getD (t - 16) 0 ∧
      exec (.wstep t d) s = .next { s with w := s.w ++ [r], rsp := some ⟨true, 0⟩ }

/-- R186, R180 to R182: in a legal state whose length is whole bytes, EXPAND idx for idx < N leaves the complete schedule of block idx: 64
words, the first 16 those of the block and each later one by the recurrence, and it is the schedule that the digest of the
message is defined by; `SCHED_IDX` is idx, the padding memo is set, and nothing else changes. -/
def Obligations.ExpandBuildsSchedule : Prop :=
  ∀ (idx : Nat) (d : Word) (s : State), s.Legal → s.fault = false → s.bitLen % 8 = 0 → idx < s.blocks →
    ∃ ws : List Word, ws.length = 64 ∧
      (∀ t, t < 16 → ws.getD t 0 = wordAt (paddedMessage s.message) (64 * idx + 4 * t)) ∧
      (∀ t, 16 ≤ t → t < 64 → ws.getD t 0 =
        sigma1W (ws.getD (t - 2) 0) + ws.getD (t - 7) 0 + sigma0W (ws.getD (t - 15) 0) + ws.getD (t - 16) 0) ∧
      ws = scheduleOf (paddedMessage s.message) idx ∧
      exec (.expand idx d) s = .next { s with
        padValid := true, blkCount := BitVec.ofNat 32 s.blocks, w := ws, schedIdx := BitVec.ofNat 24 idx
        rsp := some ⟨true, 0⟩ }

/-! ### The compression round pipeline -/

/-- R204, R206: the words of CLOAD and CFOLD; CLOAD copies `H` into `V`; CFOLD adds `V` into `H` element by element modulo 2^32 and clears `DIGEST_VALID`; neither changes
anything else. -/
def Obligations.CloadCfoldComplete : Prop :=
  ∀ (d : Word) (s : State), s.fault = false →
    decode ⟨0x30000000, d⟩ = .ok (.cload d) ∧ decode ⟨0x32000000, d⟩ = .ok (.cfold d) ∧
    (exec (.cload d) s = .next { s with v := s.h, rsp := some ⟨true, 0⟩ }) ∧
    (∃ h' : Words8,
      (∀ j, (h'.get j).toNat = ((s.h.get j).toNat + (s.v.get j).toNat) % 2 ^ 32) ∧
      exec (.cfold d) s = .next { s with h := h', digestValid := false, rsp := some ⟨true, 0⟩ })

/-- R205, R201: ROUND i for i < `SCHED_FILL` makes the simultaneous assignment of the round function, with `K[i]` and `W[i]`, and changes
nothing else. -/
def Obligations.RoundUpdatesWorkingRegisters : Prop :=
  ∀ (i : Nat) (d : Word) (s : State), s.fault = false → i < s.schedFill →
    ∃ t1 t2 : Word,
      t1 = usigma1W s.v.w4 + chW s.v.w4 s.v.w5 s.v.w6 + s.v.w7 + K.getD i 0 + s.w.getD i 0 ∧
      t2 = usigma0W s.v.w0 + majW s.v.w0 s.v.w1 s.v.w2 ∧
      exec (.round i d) s = .next { s with
        v := ⟨t1 + t2, s.v.w0, s.v.w1, s.v.w2, s.v.w3 + t1, s.v.w4, s.v.w5, s.v.w6⟩, rsp := some ⟨true, 0⟩ }

/-- R207, R202: COMPRESS of a complete schedule runs rounds 0 .. 63 from `H` and adds the result to `H`; it clears `DIGEST_VALID`, leaves `V`
as after round 63 and changes nothing else. -/
def Obligations.CompressFoldsBlock : Prop :=
  ∀ (d : Word) (s : State), s.fault = false → s.schedFill = 64 →
    ∃ v : Nat → Words8, v 0 = s.h ∧ (∀ i, i < 64 → v (i + 1) = roundFn i (v i) (s.w.getD i 0)) ∧
      compressFn s.h s.w = addW8 s.h (v 64) ∧
      exec (.compress d) s = .next { s with
        v := v 64, h := addW8 s.h (v 64), digestValid := false, rsp := some ⟨true, 0⟩ }

/-! ### Control -/

/-- R221, R258: the word of NOP; NOP answers (1, 0) in every state, halted or not, and changes nothing. -/
def Obligations.NopOnlyAnswers : Prop :=
  ∀ (d : Word) (s : State), decode ⟨0x00000000, d⟩ = .ok (.nop d) ∧ exec (.nop d) s = .next { s with rsp := some ⟨true, 0⟩ }

/-- R222, R36, R32: the register map: what RDREG of each mapped and readable address answers, in a running and in a halted core; nothing
changes. -/
def Obligations.RdregAnswersRegister : Prop :=
  ∀ (r8 : Nat) (d : Word) (s : State), mapped r8 → ¬ s.unreadable r8 →
    ∃ v : Word, exec (.rdreg r8 d) s = .next { s with rsp := some ⟨true, v⟩ } ∧
      (r8 = 0x00 → v.getLsbD 0 = s.padValid ∧ v.getLsbD 1 = decide (s.schedFill = 64) ∧ v.getLsbD 2 = s.digestValid ∧
        v.getLsbD 3 = s.fault ∧ v.toNat / 16 = 0) ∧
      (r8 = 0x01 → v.toNat = s.err.toNat) ∧ (r8 = 0x02 → v = s.errCmd) ∧ (r8 = 0x03 → v = s.errData) ∧
      (r8 = 0x04 → v = s.msgBitlen) ∧ (r8 = 0x05 → v = s.blkCount) ∧
      (r8 = 0x06 → v.toNat = s.schedIdx.toNat) ∧ (r8 = 0x07 → v.toNat = s.schedFill % 2 ^ 32) ∧
      (r8 = 0x08 → v.toNat = s.msgCap % 2 ^ 32) ∧
      (∀ j : Fin 8, r8 = 0x10 + j.val → v = s.h.get j) ∧
      (∀ j : Fin 8, r8 = 0x18 + j.val → v = s.v.get j) ∧
      (∀ i : XReg, r8 = 0x20 + i.val → v = s.readX i) ∧
      (∀ t : Nat, t < 64 → r8 = 0x40 + t → s.w[t]? = some v) ∧
      (∀ i : Nat, i < 64 → r8 = 0x80 + i → K[i]? = some v) ∧
      (∀ j : Fin 8, r8 = 0xC0 + j.val → v = HINIT.get j)

/-- R223, R38: WRREG to 0x04 of a length up to 8 · `MSG_CAP`, whole bytes or not, sets `MSG_BITLEN`, clears the memos and changes nothing
else. -/
def Obligations.WrregSetsLength : Prop :=
  ∀ (d : Word) (s : State), s.fault = false → d.toNat ≤ 8 * s.msgCap →
    exec (.wrreg 0x04 d) s = .next { s with
      msgBitlen := d, padValid := false, blkCount := 0, w := [], schedIdx := 0, digestValid := false
      rsp := some ⟨true, 0⟩ }

/-- R224: the word of INIT; INIT sets `H` to `HINIT`, clears `DIGEST_VALID` and changes nothing else. -/
def Obligations.InitSetsHashState : Prop :=
  ∀ (d : Word) (s : State), s.fault = false →
    decode ⟨0x03000000, d⟩ = .ok (.init d) ∧
    exec (.init d) s = .next { s with h := HINIT, digestValid := false, rsp := some ⟨true, 0⟩ }

/-- R230, R225, R208: in a legal state whose length is whole bytes, HASH leaves in `H` the SHA-256 digest of the message that the memory and
the length register hold, in `V` the registers after round 63 of the last block and in the schedule buffer its schedule, sets
`PAD_VALID` and `DIGEST_VALID`, and changes nothing else. -/
def Obligations.HashComputesSha256 : Prop :=
  ∀ (d : Word) (s : State), s.Legal → s.fault = false → s.bitLen % 8 = 0 →
    exec (.hash d) s = .next { s with
      h := sha256 s.message
      v := roundsFn 64 (chain (paddedMessage s.message) (s.blocks - 1)) (scheduleOf (paddedMessage s.message) (s.blocks - 1))
      padValid := true
      blkCount := BitVec.ofNat 32 s.blocks
      w := scheduleOf (paddedMessage s.message) (s.blocks - 1)
      schedIdx := BitVec.ofNat 24 (s.blocks - 1)
      digestValid := true
      rsp := some ⟨true, 0⟩ }

/-- R234: HASH leaves the state that the sequence of EXPAND and COMPRESS and the sequence of primitive commands leave, but for
`DIGEST_VALID`, and every command of both sequences responds (1, 0). -/
def Obligations.HashEqualsManualSequence : Prop :=
  ∀ (d : Word) (s : State), s.Legal → s.fault = false → s.bitLen % 8 = 0 →
    ∃ t, exec (.hash d) s = .next t ∧ t.digestValid = true ∧
      (runCommands (manualSequence s.blocks) s).1 = { t with digestValid := false } ∧
      (runCommands (primitiveSequence s.blocks) s).1 = { t with digestValid := false } ∧
      (∀ r ∈ (runCommands (manualSequence s.blocks) s).2, r = some ⟨true, 0⟩) ∧
      (∀ r ∈ (runCommands (primitiveSequence s.blocks) s).2, r = some ⟨true, 0⟩)

/-- R233: the `H`, `V`, `W` and block count that HASH leaves depend only on the length register and the message bytes below the length, not
on the earlier `H`, `V`, `W`, `X`, memos, or the bytes at or beyond the length. -/
def Obligations.HashDependsOnlyOnMessage : Prop :=
  ∀ (d d' : Word) (s s' : State), s.Legal → s'.Legal → s.fault = false → s'.fault = false → s.bitLen % 8 = 0 →
    s.msgBitlen = s'.msgBitlen → (∀ a, a < s.byteLen → s.msgByte a = s'.msgByte a) →
    ∃ t t', exec (.hash d) s = .next t ∧ exec (.hash d') s' = .next t' ∧
      t.h = t'.h ∧ t.v = t'.v ∧ t.w = t'.w ∧ t.schedIdx = t'.schedIdx ∧ t.blkCount = t'.blkCount ∧ t.rsp = t'.rsp

/-- R35, R186, R207, R230: running the hidden sequencer through the primitive steps of a composite command, busy all the way, ends in the
state that the atomic command leaves; the phases the steps stand in, and the block index a COMPRESS holds, are the model's choice
(log 7). -/
def Obligations.SequencerRefinesAtomicCommand : Prop :=
  ∀ (k : Composite) (d : Word) (s : State), s.Legal → s.fault = false → s.faultOf (k.instr d) = none →
    exec (k.instr d) s = .next (State.seqRun k (k.steps s.blocks) (s.seqStart k)) ∧
    ∀ n, n < k.steps s.blocks → (State.seqRun k n (s.seqStart k)).busy = true

/-- R43, R231: with `DIGEST_VALID = 1` the digest pins carry `H[0]` in bits 255:224 down to `H[7]` in bits 31:0, and byte k of the digest is
bits 255−8k : 248−8k; the flags are on their pins. With `DIGEST_VALID = 0` the model shows no digest (log 9). -/
def Obligations.PinsShowDigest : Prop :=
  ∀ s : State,
    s.pins.busy = decide (s.seq.phase ≠ .idle) ∧ s.pins.cmdReady = !s.pins.busy ∧ s.pins.fault = s.fault ∧
    s.pins.digestValid = s.digestValid ∧
    (s.digestValid = false → s.pins.digest = none) ∧
    (s.digestValid = true → ∃ b, s.pins.digest = some b ∧
      (∀ j : Fin 8, b.extractLsb' (224 - 32 * j.val) 32 = s.h.get j) ∧
      (digestBytes s.h).length = 32 ∧
      (∀ k, k < 32 → (digestBytes s.h).getD k 0 = b.extractLsb' (248 - 8 * k) 8))

/-- R136, R137, R232: `hex` is "0x" and 8 lowercase hex digits, the most significant first, `bin` is the 32 bits, bit 31 first, and
`digest_hex` is the 8 digits of each of the 8 words in order; each tells different values apart. -/
def Obligations.RenderingsAreFaithful : Prop :=
  (∀ x : Word, (hexW x).length = 10 ∧ hexW x = '0' :: 'x' :: hex8 x ∧
    ∀ k, k < 8 → ∃ n, n = x.toNat / 16 ^ (7 - k) % 16 ∧ (hex8 x)[k]? = "0123456789abcdef".toList[n]?) ∧
  Function.Injective hexW ∧
  (∀ x : Word, (binW x).length = 32 ∧ ∀ k, k < 32 → (binW x)[k]? = some (if x.getLsbD (31 - k) then '1' else '0')) ∧
  (∀ h : Words8, (digestHex h).length = 64 ∧ ∀ j : Fin 8, ((digestHex h).drop (8 * j.val)).take 8 = hex8 (h.get j)) ∧
  Function.Injective digestHex

/-- R101, R167: MSGLOAD writes its bytes to consecutive addresses and leaves every other byte as it was. -/
def Obligations.MsgloadStoresBytes : Prop :=
  ∀ (a : Nat) (bs : List Byte) (s : State), s.fault = false → a + bs.length ≤ s.msgCap →
    ∃ t, (runCommands (Pseudo.msgload a bs).expand s).1 = t ∧ t.fault = false ∧ t.msgCap = s.msgCap ∧
      (∀ k, k < bs.length → t.msgByte (a + k) = bs.getD k 0) ∧
      (∀ b, b < a ∨ a + bs.length ≤ b → t.msgByte b = s.msgByte b)

/-- R301, R225: from any legal running state, writing the bytes of any message that fits (MSGLOAD), its length (SETLENB) and HASH leaves
the SHA-256 digest of exactly that message in `H`, with `DIGEST_VALID = 1`, whatever the core held before. -/
def Obligations.HostHashesAnyMessage : Prop :=
  ∀ (m : List Byte) (s : State), s.Legal → s.fault = false → m.length ≤ s.msgCap →
    ∃ t, (runCommands ((Pseudo.msgload 0 m).expand ++ (Pseudo.setlenb m.length).expand ++ [.hash 0]) s).1 = t ∧
      t.h = sha256 m ∧ t.digestValid = true ∧ t.fault = false ∧ t.rsp = some ⟨true, 0⟩ ∧ t.Legal ∧ t.MemosTrue
end

