-- ==== Sys2Proof/Laws/State.lean ====
section
/-! SUPPORT. What every update of the state does to every field, and which views of the state it leaves alone: each true by
unfolding, so that no later proof unfolds a record update. -/

namespace Sys2Proof.Machine

variable (s : State)

/-! ### writeMsg -/

@[simp] theorem State.writeMsg_x (a : Nat) (b : Byte) : (s.writeMsg a b).x = s.x := rfl
@[simp] theorem State.writeMsg_h (a : Nat) (b : Byte) : (s.writeMsg a b).h = s.h := rfl
@[simp] theorem State.writeMsg_v (a : Nat) (b : Byte) : (s.writeMsg a b).v = s.v := rfl
@[simp] theorem State.writeMsg_msg (a : Nat) (b : Byte) : (s.writeMsg a b).msg = Memory.store s.msg a b := rfl
@[simp] theorem State.writeMsg_msgBitlen (a : Nat) (b : Byte) : (s.writeMsg a b).msgBitlen = s.msgBitlen := rfl
@[simp] theorem State.writeMsg_padValid (a : Nat) (b : Byte) : (s.writeMsg a b).padValid = s.padValid := rfl
@[simp] theorem State.writeMsg_blkCount (a : Nat) (b : Byte) : (s.writeMsg a b).blkCount = s.blkCount := rfl
@[simp] theorem State.writeMsg_w (a : Nat) (b : Byte) : (s.writeMsg a b).w = s.w := rfl
@[simp] theorem State.writeMsg_schedIdx (a : Nat) (b : Byte) : (s.writeMsg a b).schedIdx = s.schedIdx := rfl
@[simp] theorem State.writeMsg_digestValid (a : Nat) (b : Byte) : (s.writeMsg a b).digestValid = s.digestValid := rfl
@[simp] theorem State.writeMsg_fault (a : Nat) (b : Byte) : (s.writeMsg a b).fault = s.fault := rfl
@[simp] theorem State.writeMsg_err (a : Nat) (b : Byte) : (s.writeMsg a b).err = s.err := rfl
@[simp] theorem State.writeMsg_errCmd (a : Nat) (b : Byte) : (s.writeMsg a b).errCmd = s.errCmd := rfl
@[simp] theorem State.writeMsg_errData (a : Nat) (b : Byte) : (s.writeMsg a b).errData = s.errData := rfl
@[simp] theorem State.writeMsg_seq (a : Nat) (b : Byte) : (s.writeMsg a b).seq = s.seq := rfl
@[simp] theorem State.writeMsg_rsp (a : Nat) (b : Byte) : (s.writeMsg a b).rsp = s.rsp := rfl
@[simp] theorem State.writeMsg_pending (a : Nat) (b : Byte) : (s.writeMsg a b).pending = s.pending := rfl
@[simp] theorem State.writeMsg_msgCap (a : Nat) (b : Byte) : (s.writeMsg a b).msgCap = s.msgCap := rfl
@[simp] theorem State.writeMsg_msgEpoch (a : Nat) (b : Byte) : (s.writeMsg a b).msgEpoch = s.msgEpoch := rfl

/-! ### writeX -/

@[simp] theorem State.writeX_x (i : XReg) (r : Word) : (s.writeX i r).x = s.x.set i.val r := rfl
@[simp] theorem State.writeX_h (i : XReg) (r : Word) : (s.writeX i r).h = s.h := rfl
@[simp] theorem State.writeX_v (i : XReg) (r : Word) : (s.writeX i r).v = s.v := rfl
@[simp] theorem State.writeX_msg (i : XReg) (r : Word) : (s.writeX i r).msg = s.msg := rfl
@[simp] theorem State.writeX_msgBitlen (i : XReg) (r : Word) : (s.writeX i r).msgBitlen = s.msgBitlen := rfl
@[simp] theorem State.writeX_padValid (i : XReg) (r : Word) : (s.writeX i r).padValid = s.padValid := rfl
@[simp] theorem State.writeX_blkCount (i : XReg) (r : Word) : (s.writeX i r).blkCount = s.blkCount := rfl
@[simp] theorem State.writeX_w (i : XReg) (r : Word) : (s.writeX i r).w = s.w := rfl
@[simp] theorem State.writeX_schedIdx (i : XReg) (r : Word) : (s.writeX i r).schedIdx = s.schedIdx := rfl
@[simp] theorem State.writeX_digestValid (i : XReg) (r : Word) : (s.writeX i r).digestValid = s.digestValid := rfl
@[simp] theorem State.writeX_fault (i : XReg) (r : Word) : (s.writeX i r).fault = s.fault := rfl
@[simp] theorem State.writeX_err (i : XReg) (r : Word) : (s.writeX i r).err = s.err := rfl
@[simp] theorem State.writeX_errCmd (i : XReg) (r : Word) : (s.writeX i r).errCmd = s.errCmd := rfl
@[simp] theorem State.writeX_errData (i : XReg) (r : Word) : (s.writeX i r).errData = s.errData := rfl
@[simp] theorem State.writeX_seq (i : XReg) (r : Word) : (s.writeX i r).seq = s.seq := rfl
@[simp] theorem State.writeX_rsp (i : XReg) (r : Word) : (s.writeX i r).rsp = s.rsp := rfl
@[simp] theorem State.writeX_pending (i : XReg) (r : Word) : (s.writeX i r).pending = s.pending := rfl
@[simp] theorem State.writeX_msgCap (i : XReg) (r : Word) : (s.writeX i r).msgCap = s.msgCap := rfl
@[simp] theorem State.writeX_msgEpoch (i : XReg) (r : Word) : (s.writeX i r).msgEpoch = s.msgEpoch := rfl

/-! ### respond -/

@[simp] theorem State.respond_x (ok : Bool) (r : Word) : (s.respond ok r).x = s.x := rfl
@[simp] theorem State.respond_h (ok : Bool) (r : Word) : (s.respond ok r).h = s.h := rfl
@[simp] theorem State.respond_v (ok : Bool) (r : Word) : (s.respond ok r).v = s.v := rfl
@[simp] theorem State.respond_msg (ok : Bool) (r : Word) : (s.respond ok r).msg = s.msg := rfl
@[simp] theorem State.respond_msgBitlen (ok : Bool) (r : Word) : (s.respond ok r).msgBitlen = s.msgBitlen := rfl
@[simp] theorem State.respond_padValid (ok : Bool) (r : Word) : (s.respond ok r).padValid = s.padValid := rfl
@[simp] theorem State.respond_blkCount (ok : Bool) (r : Word) : (s.respond ok r).blkCount = s.blkCount := rfl
@[simp] theorem State.respond_w (ok : Bool) (r : Word) : (s.respond ok r).w = s.w := rfl
@[simp] theorem State.respond_schedIdx (ok : Bool) (r : Word) : (s.respond ok r).schedIdx = s.schedIdx := rfl
@[simp] theorem State.respond_digestValid (ok : Bool) (r : Word) : (s.respond ok r).digestValid = s.digestValid := rfl
@[simp] theorem State.respond_fault (ok : Bool) (r : Word) : (s.respond ok r).fault = s.fault := rfl
@[simp] theorem State.respond_err (ok : Bool) (r : Word) : (s.respond ok r).err = s.err := rfl
@[simp] theorem State.respond_errCmd (ok : Bool) (r : Word) : (s.respond ok r).errCmd = s.errCmd := rfl
@[simp] theorem State.respond_errData (ok : Bool) (r : Word) : (s.respond ok r).errData = s.errData := rfl
@[simp] theorem State.respond_seq (ok : Bool) (r : Word) : (s.respond ok r).seq = s.seq := rfl
@[simp] theorem State.respond_rsp (ok : Bool) (r : Word) : (s.respond ok r).rsp = some ⟨ok, r⟩ := rfl
@[simp] theorem State.respond_pending (ok : Bool) (r : Word) : (s.respond ok r).pending = s.pending := rfl
@[simp] theorem State.respond_msgCap (ok : Bool) (r : Word) : (s.respond ok r).msgCap = s.msgCap := rfl
@[simp] theorem State.respond_msgEpoch (ok : Bool) (r : Word) : (s.respond ok r).msgEpoch = s.msgEpoch := rfl

/-! ### refuse -/

@[simp] theorem State.refuse_x : s.refuse.x = s.x := rfl
@[simp] theorem State.refuse_h : s.refuse.h = s.h := rfl
@[simp] theorem State.refuse_v : s.refuse.v = s.v := rfl
@[simp] theorem State.refuse_msg : s.refuse.msg = s.msg := rfl
@[simp] theorem State.refuse_msgBitlen : s.refuse.msgBitlen = s.msgBitlen := rfl
@[simp] theorem State.refuse_padValid : s.refuse.padValid = s.padValid := rfl
@[simp] theorem State.refuse_blkCount : s.refuse.blkCount = s.blkCount := rfl
@[simp] theorem State.refuse_w : s.refuse.w = s.w := rfl
@[simp] theorem State.refuse_schedIdx : s.refuse.schedIdx = s.schedIdx := rfl
@[simp] theorem State.refuse_digestValid : s.refuse.digestValid = s.digestValid := rfl
@[simp] theorem State.refuse_fault : s.refuse.fault = s.fault := rfl
@[simp] theorem State.refuse_err : s.refuse.err = s.err := rfl
@[simp] theorem State.refuse_errCmd : s.refuse.errCmd = s.errCmd := rfl
@[simp] theorem State.refuse_errData : s.refuse.errData = s.errData := rfl
@[simp] theorem State.refuse_seq : s.refuse.seq = s.seq := rfl
@[simp] theorem State.refuse_rsp : s.refuse.rsp = some ⟨false, 0⟩ := rfl
@[simp] theorem State.refuse_pending : s.refuse.pending = s.pending := rfl
@[simp] theorem State.refuse_msgCap : s.refuse.msgCap = s.msgCap := rfl
@[simp] theorem State.refuse_msgEpoch : s.refuse.msgEpoch = s.msgEpoch := rfl

/-! ### raise -/

@[simp] theorem State.raise_x (f : FaultKind) (c : Command) : (s.raise f c).x = s.x := rfl
@[simp] theorem State.raise_h (f : FaultKind) (c : Command) : (s.raise f c).h = s.h := rfl
@[simp] theorem State.raise_v (f : FaultKind) (c : Command) : (s.raise f c).v = s.v := rfl
@[simp] theorem State.raise_msg (f : FaultKind) (c : Command) : (s.raise f c).msg = s.msg := rfl
@[simp] theorem State.raise_msgBitlen (f : FaultKind) (c : Command) : (s.raise f c).msgBitlen = s.msgBitlen := rfl
@[simp] theorem State.raise_padValid (f : FaultKind) (c : Command) : (s.raise f c).padValid = s.padValid := rfl
@[simp] theorem State.raise_blkCount (f : FaultKind) (c : Command) : (s.raise f c).blkCount = s.blkCount := rfl
@[simp] theorem State.raise_w (f : FaultKind) (c : Command) : (s.raise f c).w = s.w := rfl
@[simp] theorem State.raise_schedIdx (f : FaultKind) (c : Command) : (s.raise f c).schedIdx = s.schedIdx := rfl
@[simp] theorem State.raise_digestValid (f : FaultKind) (c : Command) : (s.raise f c).digestValid = s.digestValid := rfl
@[simp] theorem State.raise_fault (f : FaultKind) (c : Command) : (s.raise f c).fault = true := rfl
@[simp] theorem State.raise_err (f : FaultKind) (c : Command) : (s.raise f c).err = f.code := rfl
@[simp] theorem State.raise_errCmd (f : FaultKind) (c : Command) : (s.raise f c).errCmd = c.cmd := rfl
@[simp] theorem State.raise_errData (f : FaultKind) (c : Command) : (s.raise f c).errData = c.wdata := rfl
@[simp] theorem State.raise_seq (f : FaultKind) (c : Command) : (s.raise f c).seq = s.seq := rfl
@[simp] theorem State.raise_rsp (f : FaultKind) (c : Command) : (s.raise f c).rsp = some ⟨false, 0⟩ := rfl
@[simp] theorem State.raise_pending (f : FaultKind) (c : Command) : (s.raise f c).pending = s.pending := rfl
@[simp] theorem State.raise_msgCap (f : FaultKind) (c : Command) : (s.raise f c).msgCap = s.msgCap := rfl
@[simp] theorem State.raise_msgEpoch (f : FaultKind) (c : Command) : (s.raise f c).msgEpoch = s.msgEpoch := rfl

/-! ### afterReset -/

@[simp] theorem State.afterReset_x : s.afterReset.x = Vector.replicate 4 0 := rfl
@[simp] theorem State.afterReset_h : s.afterReset.h = HINIT := rfl
@[simp] theorem State.afterReset_v : s.afterReset.v = Words8.zero := rfl
@[simp] theorem State.afterReset_msg : s.afterReset.msg = [] := rfl
@[simp] theorem State.afterReset_msgBitlen : s.afterReset.msgBitlen = 0 := rfl
@[simp] theorem State.afterReset_padValid : s.afterReset.padValid = false := rfl
@[simp] theorem State.afterReset_blkCount : s.afterReset.blkCount = 0 := rfl
@[simp] theorem State.afterReset_w : s.afterReset.w = [] := rfl
@[simp] theorem State.afterReset_schedIdx : s.afterReset.schedIdx = 0 := rfl
@[simp] theorem State.afterReset_digestValid : s.afterReset.digestValid = false := rfl
@[simp] theorem State.afterReset_fault : s.afterReset.fault = false := rfl
@[simp] theorem State.afterReset_err : s.afterReset.err = 0 := rfl
@[simp] theorem State.afterReset_errCmd : s.afterReset.errCmd = 0 := rfl
@[simp] theorem State.afterReset_errData : s.afterReset.errData = 0 := rfl
@[simp] theorem State.afterReset_seq : s.afterReset.seq = Seq.ready := rfl
@[simp] theorem State.afterReset_rsp : s.afterReset.rsp = none := rfl
@[simp] theorem State.afterReset_pending : s.afterReset.pending = s.pending := rfl
@[simp] theorem State.afterReset_msgCap : s.afterReset.msgCap = s.msgCap := rfl
@[simp] theorem State.afterReset_msgEpoch : s.afterReset.msgEpoch = s.msgEpoch + 1 := rfl

/-! ### clearMemos -/

@[simp] theorem State.clearMemos_x : s.clearMemos.x = s.x := rfl
@[simp] theorem State.clearMemos_h : s.clearMemos.h = s.h := rfl
@[simp] theorem State.clearMemos_v : s.clearMemos.v = s.v := rfl
@[simp] theorem State.clearMemos_msg : s.clearMemos.msg = s.msg := rfl
@[simp] theorem State.clearMemos_msgBitlen : s.clearMemos.msgBitlen = s.msgBitlen := rfl
@[simp] theorem State.clearMemos_padValid : s.clearMemos.padValid = false := rfl
@[simp] theorem State.clearMemos_blkCount : s.clearMemos.blkCount = 0 := rfl
@[simp] theorem State.clearMemos_w : s.clearMemos.w = [] := rfl
@[simp] theorem State.clearMemos_schedIdx : s.clearMemos.schedIdx = 0 := rfl
@[simp] theorem State.clearMemos_digestValid : s.clearMemos.digestValid = false := rfl
@[simp] theorem State.clearMemos_fault : s.clearMemos.fault = s.fault := rfl
@[simp] theorem State.clearMemos_err : s.clearMemos.err = s.err := rfl
@[simp] theorem State.clearMemos_errCmd : s.clearMemos.errCmd = s.errCmd := rfl
@[simp] theorem State.clearMemos_errData : s.clearMemos.errData = s.errData := rfl
@[simp] theorem State.clearMemos_seq : s.clearMemos.seq = s.seq := rfl
@[simp] theorem State.clearMemos_rsp : s.clearMemos.rsp = s.rsp := rfl
@[simp] theorem State.clearMemos_pending : s.clearMemos.pending = s.pending := rfl
@[simp] theorem State.clearMemos_msgCap : s.clearMemos.msgCap = s.msgCap := rfl
@[simp] theorem State.clearMemos_msgEpoch : s.clearMemos.msgEpoch = s.msgEpoch := rfl

/-! ### setBitlen -/

@[simp] theorem State.setBitlen_x (d : Word) : (s.setBitlen d).x = s.x := rfl
@[simp] theorem State.setBitlen_h (d : Word) : (s.setBitlen d).h = s.h := rfl
@[simp] theorem State.setBitlen_v (d : Word) : (s.setBitlen d).v = s.v := rfl
@[simp] theorem State.setBitlen_msg (d : Word) : (s.setBitlen d).msg = s.msg := rfl
@[simp] theorem State.setBitlen_msgBitlen (d : Word) : (s.setBitlen d).msgBitlen = d := rfl
@[simp] theorem State.setBitlen_padValid (d : Word) : (s.setBitlen d).padValid = false := rfl
@[simp] theorem State.setBitlen_blkCount (d : Word) : (s.setBitlen d).blkCount = 0 := rfl
@[simp] theorem State.setBitlen_w (d : Word) : (s.setBitlen d).w = [] := rfl
@[simp] theorem State.setBitlen_schedIdx (d : Word) : (s.setBitlen d).schedIdx = 0 := rfl
@[simp] theorem State.setBitlen_digestValid (d : Word) : (s.setBitlen d).digestValid = false := rfl
@[simp] theorem State.setBitlen_fault (d : Word) : (s.setBitlen d).fault = s.fault := rfl
@[simp] theorem State.setBitlen_err (d : Word) : (s.setBitlen d).err = s.err := rfl
@[simp] theorem State.setBitlen_errCmd (d : Word) : (s.setBitlen d).errCmd = s.errCmd := rfl
@[simp] theorem State.setBitlen_errData (d : Word) : (s.setBitlen d).errData = s.errData := rfl
@[simp] theorem State.setBitlen_seq (d : Word) : (s.setBitlen d).seq = s.seq := rfl
@[simp] theorem State.setBitlen_rsp (d : Word) : (s.setBitlen d).rsp = s.rsp := rfl
@[simp] theorem State.setBitlen_pending (d : Word) : (s.setBitlen d).pending = s.pending := rfl
@[simp] theorem State.setBitlen_msgCap (d : Word) : (s.setBitlen d).msgCap = s.msgCap := rfl
@[simp] theorem State.setBitlen_msgEpoch (d : Word) : (s.setBitlen d).msgEpoch = s.msgEpoch := rfl

/-! ### padWrites -/

@[simp] theorem State.padWrites_x : s.padWrites.x = s.x := rfl
@[simp] theorem State.padWrites_h : s.padWrites.h = s.h := rfl
@[simp] theorem State.padWrites_v : s.padWrites.v = s.v := rfl
@[simp] theorem State.padWrites_msg : s.padWrites.msg = s.msg := rfl
@[simp] theorem State.padWrites_msgBitlen : s.padWrites.msgBitlen = s.msgBitlen := rfl
@[simp] theorem State.padWrites_padValid : s.padWrites.padValid = true := rfl
@[simp] theorem State.padWrites_blkCount : s.padWrites.blkCount = BitVec.ofNat 32 s.blocks := rfl
@[simp] theorem State.padWrites_w : s.padWrites.w = s.w := rfl
@[simp] theorem State.padWrites_schedIdx : s.padWrites.schedIdx = s.schedIdx := rfl
@[simp] theorem State.padWrites_digestValid : s.padWrites.digestValid = s.digestValid := rfl
@[simp] theorem State.padWrites_fault : s.padWrites.fault = s.fault := rfl
@[simp] theorem State.padWrites_err : s.padWrites.err = s.err := rfl
@[simp] theorem State.padWrites_errCmd : s.padWrites.errCmd = s.errCmd := rfl
@[simp] theorem State.padWrites_errData : s.padWrites.errData = s.errData := rfl
@[simp] theorem State.padWrites_seq : s.padWrites.seq = s.seq := rfl
@[simp] theorem State.padWrites_rsp : s.padWrites.rsp = s.rsp := rfl
@[simp] theorem State.padWrites_pending : s.padWrites.pending = s.pending := rfl
@[simp] theorem State.padWrites_msgCap : s.padWrites.msgCap = s.msgCap := rfl
@[simp] theorem State.padWrites_msgEpoch : s.padWrites.msgEpoch = s.msgEpoch := rfl

/-! ### wloadWrites -/

@[simp] theorem State.wloadWrites_x (idx : Nat) : (s.wloadWrites idx).x = s.x := rfl
@[simp] theorem State.wloadWrites_h (idx : Nat) : (s.wloadWrites idx).h = s.h := rfl
@[simp] theorem State.wloadWrites_v (idx : Nat) : (s.wloadWrites idx).v = s.v := rfl
@[simp] theorem State.wloadWrites_msg (idx : Nat) : (s.wloadWrites idx).msg = s.msg := rfl
@[simp] theorem State.wloadWrites_msgBitlen (idx : Nat) : (s.wloadWrites idx).msgBitlen = s.msgBitlen := rfl
@[simp] theorem State.wloadWrites_padValid (idx : Nat) : (s.wloadWrites idx).padValid = s.padValid := rfl
@[simp] theorem State.wloadWrites_blkCount (idx : Nat) : (s.wloadWrites idx).blkCount = s.blkCount := rfl
@[simp] theorem State.wloadWrites_w (idx : Nat) : (s.wloadWrites idx).w = (List.range 16).map (s.blockWord idx) := rfl
@[simp] theorem State.wloadWrites_schedIdx (idx : Nat) : (s.wloadWrites idx).schedIdx = BitVec.ofNat 24 idx := rfl
@[simp] theorem State.wloadWrites_digestValid (idx : Nat) : (s.wloadWrites idx).digestValid = s.digestValid := rfl
@[simp] theorem State.wloadWrites_fault (idx : Nat) : (s.wloadWrites idx).fault = s.fault := rfl
@[simp] theorem State.wloadWrites_err (idx : Nat) : (s.wloadWrites idx).err = s.err := rfl
@[simp] theorem State.wloadWrites_errCmd (idx : Nat) : (s.wloadWrites idx).errCmd = s.errCmd := rfl
@[simp] theorem State.wloadWrites_errData (idx : Nat) : (s.wloadWrites idx).errData = s.errData := rfl
@[simp] theorem State.wloadWrites_seq (idx : Nat) : (s.wloadWrites idx).seq = s.seq := rfl
@[simp] theorem State.wloadWrites_rsp (idx : Nat) : (s.wloadWrites idx).rsp = s.rsp := rfl
@[simp] theorem State.wloadWrites_pending (idx : Nat) : (s.wloadWrites idx).pending = s.pending := rfl
@[simp] theorem State.wloadWrites_msgCap (idx : Nat) : (s.wloadWrites idx).msgCap = s.msgCap := rfl
@[simp] theorem State.wloadWrites_msgEpoch (idx : Nat) : (s.wloadWrites idx).msgEpoch = s.msgEpoch := rfl

/-! ### wstepWrites -/

@[simp] theorem State.wstepWrites_x (t : Nat) : (s.wstepWrites t).x = s.x := rfl
@[simp] theorem State.wstepWrites_h (t : Nat) : (s.wstepWrites t).h = s.h := rfl
@[simp] theorem State.wstepWrites_v (t : Nat) : (s.wstepWrites t).v = s.v := rfl
@[simp] theorem State.wstepWrites_msg (t : Nat) : (s.wstepWrites t).msg = s.msg := rfl
@[simp] theorem State.wstepWrites_msgBitlen (t : Nat) : (s.wstepWrites t).msgBitlen = s.msgBitlen := rfl
@[simp] theorem State.wstepWrites_padValid (t : Nat) : (s.wstepWrites t).padValid = s.padValid := rfl
@[simp] theorem State.wstepWrites_blkCount (t : Nat) : (s.wstepWrites t).blkCount = s.blkCount := rfl
@[simp] theorem State.wstepWrites_w (t : Nat) : (s.wstepWrites t).w = s.w ++ [scheduleNext s.w t] := rfl
@[simp] theorem State.wstepWrites_schedIdx (t : Nat) : (s.wstepWrites t).schedIdx = s.schedIdx := rfl
@[simp] theorem State.wstepWrites_digestValid (t : Nat) : (s.wstepWrites t).digestValid = s.digestValid := rfl
@[simp] theorem State.wstepWrites_fault (t : Nat) : (s.wstepWrites t).fault = s.fault := rfl
@[simp] theorem State.wstepWrites_err (t : Nat) : (s.wstepWrites t).err = s.err := rfl
@[simp] theorem State.wstepWrites_errCmd (t : Nat) : (s.wstepWrites t).errCmd = s.errCmd := rfl
@[simp] theorem State.wstepWrites_errData (t : Nat) : (s.wstepWrites t).errData = s.errData := rfl
@[simp] theorem State.wstepWrites_seq (t : Nat) : (s.wstepWrites t).seq = s.seq := rfl
@[simp] theorem State.wstepWrites_rsp (t : Nat) : (s.wstepWrites t).rsp = s.rsp := rfl
@[simp] theorem State.wstepWrites_pending (t : Nat) : (s.wstepWrites t).pending = s.pending := rfl
@[simp] theorem State.wstepWrites_msgCap (t : Nat) : (s.wstepWrites t).msgCap = s.msgCap := rfl
@[simp] theorem State.wstepWrites_msgEpoch (t : Nat) : (s.wstepWrites t).msgEpoch = s.msgEpoch := rfl

/-! ### cloadWrites -/

@[simp] theorem State.cloadWrites_x : s.cloadWrites.x = s.x := rfl
@[simp] theorem State.cloadWrites_h : s.cloadWrites.h = s.h := rfl
@[simp] theorem State.cloadWrites_v : s.cloadWrites.v = s.h := rfl
@[simp] theorem State.cloadWrites_msg : s.cloadWrites.msg = s.msg := rfl
@[simp] theorem State.cloadWrites_msgBitlen : s.cloadWrites.msgBitlen = s.msgBitlen := rfl
@[simp] theorem State.cloadWrites_padValid : s.cloadWrites.padValid = s.padValid := rfl
@[simp] theorem State.cloadWrites_blkCount : s.cloadWrites.blkCount = s.blkCount := rfl
@[simp] theorem State.cloadWrites_w : s.cloadWrites.w = s.w := rfl
@[simp] theorem State.cloadWrites_schedIdx : s.cloadWrites.schedIdx = s.schedIdx := rfl
@[simp] theorem State.cloadWrites_digestValid : s.cloadWrites.digestValid = s.digestValid := rfl
@[simp] theorem State.cloadWrites_fault : s.cloadWrites.fault = s.fault := rfl
@[simp] theorem State.cloadWrites_err : s.cloadWrites.err = s.err := rfl
@[simp] theorem State.cloadWrites_errCmd : s.cloadWrites.errCmd = s.errCmd := rfl
@[simp] theorem State.cloadWrites_errData : s.cloadWrites.errData = s.errData := rfl
@[simp] theorem State.cloadWrites_seq : s.cloadWrites.seq = s.seq := rfl
@[simp] theorem State.cloadWrites_rsp : s.cloadWrites.rsp = s.rsp := rfl
@[simp] theorem State.cloadWrites_pending : s.cloadWrites.pending = s.pending := rfl
@[simp] theorem State.cloadWrites_msgCap : s.cloadWrites.msgCap = s.msgCap := rfl
@[simp] theorem State.cloadWrites_msgEpoch : s.cloadWrites.msgEpoch = s.msgEpoch := rfl

/-! ### roundWrites -/

@[simp] theorem State.roundWrites_x (i : Nat) : (s.roundWrites i).x = s.x := rfl
@[simp] theorem State.roundWrites_h (i : Nat) : (s.roundWrites i).h = s.h := rfl
@[simp] theorem State.roundWrites_v (i : Nat) : (s.roundWrites i).v = roundFn i s.v (s.schedWord i) := rfl
@[simp] theorem State.roundWrites_msg (i : Nat) : (s.roundWrites i).msg = s.msg := rfl
@[simp] theorem State.roundWrites_msgBitlen (i : Nat) : (s.roundWrites i).msgBitlen = s.msgBitlen := rfl
@[simp] theorem State.roundWrites_padValid (i : Nat) : (s.roundWrites i).padValid = s.padValid := rfl
@[simp] theorem State.roundWrites_blkCount (i : Nat) : (s.roundWrites i).blkCount = s.blkCount := rfl
@[simp] theorem State.roundWrites_w (i : Nat) : (s.roundWrites i).w = s.w := rfl
@[simp] theorem State.roundWrites_schedIdx (i : Nat) : (s.roundWrites i).schedIdx = s.schedIdx := rfl
@[simp] theorem State.roundWrites_digestValid (i : Nat) : (s.roundWrites i).digestValid = s.digestValid := rfl
@[simp] theorem State.roundWrites_fault (i : Nat) : (s.roundWrites i).fault = s.fault := rfl
@[simp] theorem State.roundWrites_err (i : Nat) : (s.roundWrites i).err = s.err := rfl
@[simp] theorem State.roundWrites_errCmd (i : Nat) : (s.roundWrites i).errCmd = s.errCmd := rfl
@[simp] theorem State.roundWrites_errData (i : Nat) : (s.roundWrites i).errData = s.errData := rfl
@[simp] theorem State.roundWrites_seq (i : Nat) : (s.roundWrites i).seq = s.seq := rfl
@[simp] theorem State.roundWrites_rsp (i : Nat) : (s.roundWrites i).rsp = s.rsp := rfl
@[simp] theorem State.roundWrites_pending (i : Nat) : (s.roundWrites i).pending = s.pending := rfl
@[simp] theorem State.roundWrites_msgCap (i : Nat) : (s.roundWrites i).msgCap = s.msgCap := rfl
@[simp] theorem State.roundWrites_msgEpoch (i : Nat) : (s.roundWrites i).msgEpoch = s.msgEpoch := rfl

/-! ### cfoldWrites -/

@[simp] theorem State.cfoldWrites_x : s.cfoldWrites.x = s.x := rfl
@[simp] theorem State.cfoldWrites_h : s.cfoldWrites.h = addW8 s.h s.v := rfl
@[simp] theorem State.cfoldWrites_v : s.cfoldWrites.v = s.v := rfl
@[simp] theorem State.cfoldWrites_msg : s.cfoldWrites.msg = s.msg := rfl
@[simp] theorem State.cfoldWrites_msgBitlen : s.cfoldWrites.msgBitlen = s.msgBitlen := rfl
@[simp] theorem State.cfoldWrites_padValid : s.cfoldWrites.padValid = s.padValid := rfl
@[simp] theorem State.cfoldWrites_blkCount : s.cfoldWrites.blkCount = s.blkCount := rfl
@[simp] theorem State.cfoldWrites_w : s.cfoldWrites.w = s.w := rfl
@[simp] theorem State.cfoldWrites_schedIdx : s.cfoldWrites.schedIdx = s.schedIdx := rfl
@[simp] theorem State.cfoldWrites_digestValid : s.cfoldWrites.digestValid = false := rfl
@[simp] theorem State.cfoldWrites_fault : s.cfoldWrites.fault = s.fault := rfl
@[simp] theorem State.cfoldWrites_err : s.cfoldWrites.err = s.err := rfl
@[simp] theorem State.cfoldWrites_errCmd : s.cfoldWrites.errCmd = s.errCmd := rfl
@[simp] theorem State.cfoldWrites_errData : s.cfoldWrites.errData = s.errData := rfl
@[simp] theorem State.cfoldWrites_seq : s.cfoldWrites.seq = s.seq := rfl
@[simp] theorem State.cfoldWrites_rsp : s.cfoldWrites.rsp = s.rsp := rfl
@[simp] theorem State.cfoldWrites_pending : s.cfoldWrites.pending = s.pending := rfl
@[simp] theorem State.cfoldWrites_msgCap : s.cfoldWrites.msgCap = s.msgCap := rfl
@[simp] theorem State.cfoldWrites_msgEpoch : s.cfoldWrites.msgEpoch = s.msgEpoch := rfl

/-! ### initWrites -/

@[simp] theorem State.initWrites_x : s.initWrites.x = s.x := rfl
@[simp] theorem State.initWrites_h : s.initWrites.h = HINIT := rfl
@[simp] theorem State.initWrites_v : s.initWrites.v = s.v := rfl
@[simp] theorem State.initWrites_msg : s.initWrites.msg = s.msg := rfl
@[simp] theorem State.initWrites_msgBitlen : s.initWrites.msgBitlen = s.msgBitlen := rfl
@[simp] theorem State.initWrites_padValid : s.initWrites.padValid = s.padValid := rfl
@[simp] theorem State.initWrites_blkCount : s.initWrites.blkCount = s.blkCount := rfl
@[simp] theorem State.initWrites_w : s.initWrites.w = s.w := rfl
@[simp] theorem State.initWrites_schedIdx : s.initWrites.schedIdx = s.schedIdx := rfl
@[simp] theorem State.initWrites_digestValid : s.initWrites.digestValid = false := rfl
@[simp] theorem State.initWrites_fault : s.initWrites.fault = s.fault := rfl
@[simp] theorem State.initWrites_err : s.initWrites.err = s.err := rfl
@[simp] theorem State.initWrites_errCmd : s.initWrites.errCmd = s.errCmd := rfl
@[simp] theorem State.initWrites_errData : s.initWrites.errData = s.errData := rfl
@[simp] theorem State.initWrites_seq : s.initWrites.seq = s.seq := rfl
@[simp] theorem State.initWrites_rsp : s.initWrites.rsp = s.rsp := rfl
@[simp] theorem State.initWrites_pending : s.initWrites.pending = s.pending := rfl
@[simp] theorem State.initWrites_msgCap : s.initWrites.msgCap = s.msgCap := rfl
@[simp] theorem State.initWrites_msgEpoch : s.initWrites.msgEpoch = s.msgEpoch := rfl

/-! ### idleEdge -/

@[simp] theorem State.idleEdge_x : s.idleEdge.x = s.x := rfl
@[simp] theorem State.idleEdge_h : s.idleEdge.h = s.h := rfl
@[simp] theorem State.idleEdge_v : s.idleEdge.v = s.v := rfl
@[simp] theorem State.idleEdge_msg : s.idleEdge.msg = s.msg := rfl
@[simp] theorem State.idleEdge_msgBitlen : s.idleEdge.msgBitlen = s.msgBitlen := rfl
@[simp] theorem State.idleEdge_padValid : s.idleEdge.padValid = s.padValid := rfl
@[simp] theorem State.idleEdge_blkCount : s.idleEdge.blkCount = s.blkCount := rfl
@[simp] theorem State.idleEdge_w : s.idleEdge.w = s.w := rfl
@[simp] theorem State.idleEdge_schedIdx : s.idleEdge.schedIdx = s.schedIdx := rfl
@[simp] theorem State.idleEdge_digestValid : s.idleEdge.digestValid = s.digestValid := rfl
@[simp] theorem State.idleEdge_fault : s.idleEdge.fault = s.fault := rfl
@[simp] theorem State.idleEdge_err : s.idleEdge.err = s.err := rfl
@[simp] theorem State.idleEdge_errCmd : s.idleEdge.errCmd = s.errCmd := rfl
@[simp] theorem State.idleEdge_errData : s.idleEdge.errData = s.errData := rfl
@[simp] theorem State.idleEdge_seq : s.idleEdge.seq = s.seq := rfl
@[simp] theorem State.idleEdge_rsp : s.idleEdge.rsp = none := rfl
@[simp] theorem State.idleEdge_pending : s.idleEdge.pending = s.pending := rfl
@[simp] theorem State.idleEdge_msgCap : s.idleEdge.msgCap = s.msgCap := rfl
@[simp] theorem State.idleEdge_msgEpoch : s.idleEdge.msgEpoch = s.msgEpoch := rfl

/-! ### Views that an update leaves alone -/

@[simp] theorem State.writeMsg_bitLen (a : Nat) (b : Byte) : (s.writeMsg a b).bitLen = s.bitLen := rfl
@[simp] theorem State.writeMsg_byteLen (a : Nat) (b : Byte) : (s.writeMsg a b).byteLen = s.byteLen := rfl
@[simp] theorem State.writeMsg_blocks (a : Nat) (b : Byte) : (s.writeMsg a b).blocks = s.blocks := rfl
@[simp] theorem State.writeMsg_paddedLen (a : Nat) (b : Byte) : (s.writeMsg a b).paddedLen = s.paddedLen := rfl
@[simp] theorem State.writeMsg_schedFill (a : Nat) (b : Byte) : (s.writeMsg a b).schedFill = s.schedFill := rfl
@[simp] theorem State.writeMsg_busy (a : Nat) (b : Byte) : (s.writeMsg a b).busy = s.busy := rfl
@[simp] theorem State.writeMsg_readX (a : Nat) (b : Byte) (k : XReg) : (s.writeMsg a b).readX k = s.readX k := rfl

@[simp] theorem State.writeX_bitLen (i : XReg) (r : Word) : (s.writeX i r).bitLen = s.bitLen := rfl
@[simp] theorem State.writeX_byteLen (i : XReg) (r : Word) : (s.writeX i r).byteLen = s.byteLen := rfl
@[simp] theorem State.writeX_blocks (i : XReg) (r : Word) : (s.writeX i r).blocks = s.blocks := rfl
@[simp] theorem State.writeX_paddedLen (i : XReg) (r : Word) : (s.writeX i r).paddedLen = s.paddedLen := rfl
@[simp] theorem State.writeX_schedFill (i : XReg) (r : Word) : (s.writeX i r).schedFill = s.schedFill := rfl
@[simp] theorem State.writeX_message (i : XReg) (r : Word) : (s.writeX i r).message = s.message := rfl
@[simp] theorem State.writeX_busy (i : XReg) (r : Word) : (s.writeX i r).busy = s.busy := rfl
@[simp] theorem State.writeX_msgByte (i : XReg) (r : Word) (k : Nat) : (s.writeX i r).msgByte k = s.msgByte k := rfl
@[simp] theorem State.writeX_paddedByte (i : XReg) (r : Word) (k : Nat) : (s.writeX i r).paddedByte k = s.paddedByte k := rfl
@[simp] theorem State.writeX_blockWord (i : XReg) (r : Word) (j k : Nat) : (s.writeX i r).blockWord j k = s.blockWord j k := rfl

@[simp] theorem State.respond_bitLen (ok : Bool) (r : Word) : (s.respond ok r).bitLen = s.bitLen := rfl
@[simp] theorem State.respond_byteLen (ok : Bool) (r : Word) : (s.respond ok r).byteLen = s.byteLen := rfl
@[simp] theorem State.respond_blocks (ok : Bool) (r : Word) : (s.respond ok r).blocks = s.blocks := rfl
@[simp] theorem State.respond_paddedLen (ok : Bool) (r : Word) : (s.respond ok r).paddedLen = s.paddedLen := rfl
@[simp] theorem State.respond_schedFill (ok : Bool) (r : Word) : (s.respond ok r).schedFill = s.schedFill := rfl
@[simp] theorem State.respond_message (ok : Bool) (r : Word) : (s.respond ok r).message = s.message := rfl
@[simp] theorem State.respond_busy (ok : Bool) (r : Word) : (s.respond ok r).busy = s.busy := rfl
@[simp] theorem State.respond_msgByte (ok : Bool) (r : Word) (k : Nat) : (s.respond ok r).msgByte k = s.msgByte k := rfl
@[simp] theorem State.respond_readX (ok : Bool) (r : Word) (k : XReg) : (s.respond ok r).readX k = s.readX k := rfl
@[simp] theorem State.respond_paddedByte (ok : Bool) (r : Word) (k : Nat) : (s.respond ok r).paddedByte k = s.paddedByte k := rfl
@[simp] theorem State.respond_blockWord (ok : Bool) (r : Word) (j k : Nat) : (s.respond ok r).blockWord j k = s.blockWord j k := rfl

@[simp] theorem State.refuse_bitLen : s.refuse.bitLen = s.bitLen := rfl
@[simp] theorem State.refuse_byteLen : s.refuse.byteLen = s.byteLen := rfl
@[simp] theorem State.refuse_blocks : s.refuse.blocks = s.blocks := rfl
@[simp] theorem State.refuse_paddedLen : s.refuse.paddedLen = s.paddedLen := rfl
@[simp] theorem State.refuse_schedFill : s.refuse.schedFill = s.schedFill := rfl
@[simp] theorem State.refuse_message : s.refuse.message = s.message := rfl
@[simp] theorem State.refuse_busy : s.refuse.busy = s.busy := rfl
@[simp] theorem State.refuse_msgByte (k : Nat) : s.refuse.msgByte k = s.msgByte k := rfl
@[simp] theorem State.refuse_readX (k : XReg) : s.refuse.readX k = s.readX k := rfl
@[simp] theorem State.refuse_paddedByte (k : Nat) : s.refuse.paddedByte k = s.paddedByte k := rfl
@[simp] theorem State.refuse_blockWord (j k : Nat) : s.refuse.blockWord j k = s.blockWord j k := rfl

@[simp] theorem State.raise_bitLen (f : FaultKind) (c : Command) : (s.raise f c).bitLen = s.bitLen := rfl
@[simp] theorem State.raise_byteLen (f : FaultKind) (c : Command) : (s.raise f c).byteLen = s.byteLen := rfl
@[simp] theorem State.raise_blocks (f : FaultKind) (c : Command) : (s.raise f c).blocks = s.blocks := rfl
@[simp] theorem State.raise_paddedLen (f : FaultKind) (c : Command) : (s.raise f c).paddedLen = s.paddedLen := rfl
@[simp] theorem State.raise_schedFill (f : FaultKind) (c : Command) : (s.raise f c).schedFill = s.schedFill := rfl
@[simp] theorem State.raise_message (f : FaultKind) (c : Command) : (s.raise f c).message = s.message := rfl
@[simp] theorem State.raise_busy (f : FaultKind) (c : Command) : (s.raise f c).busy = s.busy := rfl
@[simp] theorem State.raise_msgByte (f : FaultKind) (c : Command) (k : Nat) : (s.raise f c).msgByte k = s.msgByte k := rfl
@[simp] theorem State.raise_readX (f : FaultKind) (c : Command) (k : XReg) : (s.raise f c).readX k = s.readX k := rfl
@[simp] theorem State.raise_paddedByte (f : FaultKind) (c : Command) (k : Nat) : (s.raise f c).paddedByte k = s.paddedByte k := rfl
@[simp] theorem State.raise_blockWord (f : FaultKind) (c : Command) (j k : Nat) : (s.raise f c).blockWord j k = s.blockWord j k := rfl


@[simp] theorem State.clearMemos_bitLen : s.clearMemos.bitLen = s.bitLen := rfl
@[simp] theorem State.clearMemos_byteLen : s.clearMemos.byteLen = s.byteLen := rfl
@[simp] theorem State.clearMemos_blocks : s.clearMemos.blocks = s.blocks := rfl
@[simp] theorem State.clearMemos_paddedLen : s.clearMemos.paddedLen = s.paddedLen := rfl
@[simp] theorem State.clearMemos_message : s.clearMemos.message = s.message := rfl
@[simp] theorem State.clearMemos_busy : s.clearMemos.busy = s.busy := rfl
@[simp] theorem State.clearMemos_msgByte (k : Nat) : s.clearMemos.msgByte k = s.msgByte k := rfl
@[simp] theorem State.clearMemos_readX (k : XReg) : s.clearMemos.readX k = s.readX k := rfl
@[simp] theorem State.clearMemos_paddedByte (k : Nat) : s.clearMemos.paddedByte k = s.paddedByte k := rfl
@[simp] theorem State.clearMemos_blockWord (j k : Nat) : s.clearMemos.blockWord j k = s.blockWord j k := rfl

@[simp] theorem State.setBitlen_busy (d : Word) : (s.setBitlen d).busy = s.busy := rfl
@[simp] theorem State.setBitlen_msgByte (d : Word) (k : Nat) : (s.setBitlen d).msgByte k = s.msgByte k := rfl
@[simp] theorem State.setBitlen_readX (d : Word) (k : XReg) : (s.setBitlen d).readX k = s.readX k := rfl

@[simp] theorem State.padWrites_bitLen : s.padWrites.bitLen = s.bitLen := rfl
@[simp] theorem State.padWrites_byteLen : s.padWrites.byteLen = s.byteLen := rfl
@[simp] theorem State.padWrites_blocks : s.padWrites.blocks = s.blocks := rfl
@[simp] theorem State.padWrites_paddedLen : s.padWrites.paddedLen = s.paddedLen := rfl
@[simp] theorem State.padWrites_schedFill : s.padWrites.schedFill = s.schedFill := rfl
@[simp] theorem State.padWrites_message : s.padWrites.message = s.message := rfl
@[simp] theorem State.padWrites_busy : s.padWrites.busy = s.busy := rfl
@[simp] theorem State.padWrites_msgByte (k : Nat) : s.padWrites.msgByte k = s.msgByte k := rfl
@[simp] theorem State.padWrites_readX (k : XReg) : s.padWrites.readX k = s.readX k := rfl
@[simp] theorem State.padWrites_paddedByte (k : Nat) : s.padWrites.paddedByte k = s.paddedByte k := rfl
@[simp] theorem State.padWrites_blockWord (j k : Nat) : s.padWrites.blockWord j k = s.blockWord j k := rfl

@[simp] theorem State.wloadWrites_bitLen (idx : Nat) : (s.wloadWrites idx).bitLen = s.bitLen := rfl
@[simp] theorem State.wloadWrites_byteLen (idx : Nat) : (s.wloadWrites idx).byteLen = s.byteLen := rfl
@[simp] theorem State.wloadWrites_blocks (idx : Nat) : (s.wloadWrites idx).blocks = s.blocks := rfl
@[simp] theorem State.wloadWrites_paddedLen (idx : Nat) : (s.wloadWrites idx).paddedLen = s.paddedLen := rfl
@[simp] theorem State.wloadWrites_message (idx : Nat) : (s.wloadWrites idx).message = s.message := rfl
@[simp] theorem State.wloadWrites_busy (idx : Nat) : (s.wloadWrites idx).busy = s.busy := rfl
@[simp] theorem State.wloadWrites_msgByte (idx : Nat) (k : Nat) : (s.wloadWrites idx).msgByte k = s.msgByte k := rfl
@[simp] theorem State.wloadWrites_readX (idx : Nat) (k : XReg) : (s.wloadWrites idx).readX k = s.readX k := rfl
@[simp] theorem State.wloadWrites_paddedByte (idx : Nat) (k : Nat) : (s.wloadWrites idx).paddedByte k = s.paddedByte k := rfl
@[simp] theorem State.wloadWrites_blockWord (idx : Nat) (j k : Nat) : (s.wloadWrites idx).blockWord j k = s.blockWord j k := rfl

@[simp] theorem State.wstepWrites_bitLen (t : Nat) : (s.wstepWrites t).bitLen = s.bitLen := rfl
@[simp] theorem State.wstepWrites_byteLen (t : Nat) : (s.wstepWrites t).byteLen = s.byteLen := rfl
@[simp] theorem State.wstepWrites_blocks (t : Nat) : (s.wstepWrites t).blocks = s.blocks := rfl
@[simp] theorem State.wstepWrites_paddedLen (t : Nat) : (s.wstepWrites t).paddedLen = s.paddedLen := rfl
@[simp] theorem State.wstepWrites_message (t : Nat) : (s.wstepWrites t).message = s.message := rfl
@[simp] theorem State.wstepWrites_busy (t : Nat) : (s.wstepWrites t).busy = s.busy := rfl
@[simp] theorem State.wstepWrites_msgByte (t : Nat) (k : Nat) : (s.wstepWrites t).msgByte k = s.msgByte k := rfl
@[simp] theorem State.wstepWrites_readX (t : Nat) (k : XReg) : (s.wstepWrites t).readX k = s.readX k := rfl
@[simp] theorem State.wstepWrites_paddedByte (t : Nat) (k : Nat) : (s.wstepWrites t).paddedByte k = s.paddedByte k := rfl
@[simp] theorem State.wstepWrites_blockWord (t : Nat) (j k : Nat) : (s.wstepWrites t).blockWord j k = s.blockWord j k := rfl

@[simp] theorem State.cloadWrites_bitLen : s.cloadWrites.bitLen = s.bitLen := rfl
@[simp] theorem State.cloadWrites_byteLen : s.cloadWrites.byteLen = s.byteLen := rfl
@[simp] theorem State.cloadWrites_blocks : s.cloadWrites.blocks = s.blocks := rfl
@[simp] theorem State.cloadWrites_paddedLen : s.cloadWrites.paddedLen = s.paddedLen := rfl
@[simp] theorem State.cloadWrites_schedFill : s.cloadWrites.schedFill = s.schedFill := rfl
@[simp] theorem State.cloadWrites_message : s.cloadWrites.message = s.message := rfl
@[simp] theorem State.cloadWrites_busy : s.cloadWrites.busy = s.busy := rfl
@[simp] theorem State.cloadWrites_msgByte (k : Nat) : s.cloadWrites.msgByte k = s.msgByte k := rfl
@[simp] theorem State.cloadWrites_readX (k : XReg) : s.cloadWrites.readX k = s.readX k := rfl
@[simp] theorem State.cloadWrites_paddedByte (k : Nat) : s.cloadWrites.paddedByte k = s.paddedByte k := rfl
@[simp] theorem State.cloadWrites_blockWord (j k : Nat) : s.cloadWrites.blockWord j k = s.blockWord j k := rfl

@[simp] theorem State.roundWrites_bitLen (i : Nat) : (s.roundWrites i).bitLen = s.bitLen := rfl
@[simp] theorem State.roundWrites_byteLen (i : Nat) : (s.roundWrites i).byteLen = s.byteLen := rfl
@[simp] theorem State.roundWrites_blocks (i : Nat) : (s.roundWrites i).blocks = s.blocks := rfl
@[simp] theorem State.roundWrites_paddedLen (i : Nat) : (s.roundWrites i).paddedLen = s.paddedLen := rfl
@[simp] theorem State.roundWrites_schedFill (i : Nat) : (s.roundWrites i).schedFill = s.schedFill := rfl
@[simp] theorem State.roundWrites_message (i : Nat) : (s.roundWrites i).message = s.message := rfl
@[simp] theorem State.roundWrites_busy (i : Nat) : (s.roundWrites i).busy = s.busy := rfl
@[simp] theorem State.roundWrites_msgByte (i : Nat) (k : Nat) : (s.roundWrites i).msgByte k = s.msgByte k := rfl
@[simp] theorem State.roundWrites_readX (i : Nat) (k : XReg) : (s.roundWrites i).readX k = s.readX k := rfl
@[simp] theorem State.roundWrites_paddedByte (i : Nat) (k : Nat) : (s.roundWrites i).paddedByte k = s.paddedByte k := rfl
@[simp] theorem State.roundWrites_blockWord (i : Nat) (j k : Nat) : (s.roundWrites i).blockWord j k = s.blockWord j k := rfl

@[simp] theorem State.cfoldWrites_bitLen : s.cfoldWrites.bitLen = s.bitLen := rfl
@[simp] theorem State.cfoldWrites_byteLen : s.cfoldWrites.byteLen = s.byteLen := rfl
@[simp] theorem State.cfoldWrites_blocks : s.cfoldWrites.blocks = s.blocks := rfl
@[simp] theorem State.cfoldWrites_paddedLen : s.cfoldWrites.paddedLen = s.paddedLen := rfl
@[simp] theorem State.cfoldWrites_schedFill : s.cfoldWrites.schedFill = s.schedFill := rfl
@[simp] theorem State.cfoldWrites_message : s.cfoldWrites.message = s.message := rfl
@[simp] theorem State.cfoldWrites_busy : s.cfoldWrites.busy = s.busy := rfl
@[simp] theorem State.cfoldWrites_msgByte (k : Nat) : s.cfoldWrites.msgByte k = s.msgByte k := rfl
@[simp] theorem State.cfoldWrites_readX (k : XReg) : s.cfoldWrites.readX k = s.readX k := rfl
@[simp] theorem State.cfoldWrites_paddedByte (k : Nat) : s.cfoldWrites.paddedByte k = s.paddedByte k := rfl
@[simp] theorem State.cfoldWrites_blockWord (j k : Nat) : s.cfoldWrites.blockWord j k = s.blockWord j k := rfl

@[simp] theorem State.initWrites_bitLen : s.initWrites.bitLen = s.bitLen := rfl
@[simp] theorem State.initWrites_byteLen : s.initWrites.byteLen = s.byteLen := rfl
@[simp] theorem State.initWrites_blocks : s.initWrites.blocks = s.blocks := rfl
@[simp] theorem State.initWrites_paddedLen : s.initWrites.paddedLen = s.paddedLen := rfl
@[simp] theorem State.initWrites_schedFill : s.initWrites.schedFill = s.schedFill := rfl
@[simp] theorem State.initWrites_message : s.initWrites.message = s.message := rfl
@[simp] theorem State.initWrites_busy : s.initWrites.busy = s.busy := rfl
@[simp] theorem State.initWrites_msgByte (k : Nat) : s.initWrites.msgByte k = s.msgByte k := rfl
@[simp] theorem State.initWrites_readX (k : XReg) : s.initWrites.readX k = s.readX k := rfl
@[simp] theorem State.initWrites_paddedByte (k : Nat) : s.initWrites.paddedByte k = s.paddedByte k := rfl
@[simp] theorem State.initWrites_blockWord (j k : Nat) : s.initWrites.blockWord j k = s.blockWord j k := rfl

@[simp] theorem State.idleEdge_bitLen : s.idleEdge.bitLen = s.bitLen := rfl
@[simp] theorem State.idleEdge_byteLen : s.idleEdge.byteLen = s.byteLen := rfl
@[simp] theorem State.idleEdge_blocks : s.idleEdge.blocks = s.blocks := rfl
@[simp] theorem State.idleEdge_paddedLen : s.idleEdge.paddedLen = s.paddedLen := rfl
@[simp] theorem State.idleEdge_schedFill : s.idleEdge.schedFill = s.schedFill := rfl
@[simp] theorem State.idleEdge_message : s.idleEdge.message = s.message := rfl
@[simp] theorem State.idleEdge_busy : s.idleEdge.busy = s.busy := rfl
@[simp] theorem State.idleEdge_msgByte (k : Nat) : s.idleEdge.msgByte k = s.msgByte k := rfl
@[simp] theorem State.idleEdge_readX (k : XReg) : s.idleEdge.readX k = s.readX k := rfl
@[simp] theorem State.idleEdge_paddedByte (k : Nat) : s.idleEdge.paddedByte k = s.paddedByte k := rfl
@[simp] theorem State.idleEdge_blockWord (j k : Nat) : s.idleEdge.blockWord j k = s.blockWord j k := rfl

end Sys2Proof.Machine
end

