-- ==== Sys2Proof/Laws/Memory.lean ====
section
/-! SUPPORT. The message memory: a read after a write, and the canonical form, which every operation keeps. -/

namespace Sys2Proof.Machine

theorem Memory.lookup_store_same (m : Memory) (a : Nat) (v : Byte) :
    Memory.lookup (Memory.store m a v) a = some v := by
  induction m with
  | nil => simp [Memory.store, Memory.lookup]
  | cons p m ih =>
    unfold Memory.store
    split
    · simp [Memory.lookup]
    · split
      · simp [Memory.lookup]
      · rename_i h
        simp [Memory.lookup, Ne.symm h, ih]

theorem Memory.lookup_store_other (m : Memory) {a b : Nat} (v : Byte) (h : b ≠ a) :
    Memory.lookup (Memory.store m a v) b = Memory.lookup m b := by
  induction m with
  | nil => simp [Memory.store, Memory.lookup, Ne.symm h]
  | cons p m ih =>
    unfold Memory.store
    split
    · simp [Memory.lookup, Ne.symm h]
    · split
      · rename_i hp
        simp [Memory.lookup, ← hp, Ne.symm h]
      · simp [Memory.lookup, ih]

/-- What is listed after a write was listed before, or is the byte written. -/
theorem Memory.mem_store {m : Memory} {a : Nat} {v : Byte} {p : Host.Cell} (h : p ∈ Memory.store m a v) :
    p = (a, v) ∨ p ∈ m := by
  induction m with
  | nil => simpa [Memory.store] using h
  | cons q m ih =>
    unfold Memory.store at h
    split at h
    · simpa using h
    · split at h
      · simp only [List.mem_cons] at h ⊢
        tauto
      · simp only [List.mem_cons] at h ⊢
        rcases h with h | h
        · exact .inr (.inl h)
        · rcases ih h with h | h
          · exact .inl h
          · exact .inr (.inr h)

/-- A write keeps the canonical form. -/
theorem Memory.store_wf {m : Memory} (h : Memory.wf m) (a : Nat) (v : Byte) : Memory.wf (Memory.store m a v) := by
  induction m with
  | nil => simp [Memory.store, Memory.wf]
  | cons p m ih =>
    have hp := List.pairwise_cons.1 h
    unfold Memory.store
    split
    · rename_i ha
      refine List.pairwise_cons.2 ⟨fun q hq => ?_, h⟩
      rcases List.mem_cons.1 hq with rfl | hq
      · exact ha
      · exact lt_trans ha (hp.1 q hq)
    · split
      · rename_i _ ha
        subst ha
        exact List.pairwise_cons.2 ⟨hp.1, hp.2⟩
      · rename_i h1 h2
        refine List.pairwise_cons.2 ⟨fun q hq => ?_, ih hp.2⟩
        rcases Memory.mem_store hq with rfl | hq
        · show p.1 < a
          omega
        · exact hp.1 q hq

/-- The memory of the reset state is canonical. -/
theorem State.reset_memory_wf : Memory.wf State.reset.msg := List.Pairwise.nil

theorem State.msgByte_writeMsg_same (s : State) (a : Nat) (v : Byte) : (s.writeMsg a v).msgByte a = v := by
  simp [State.msgByte, Memory.lookup_store_same]

theorem State.msgByte_writeMsg_other (s : State) {a b : Nat} (v : Byte) (h : b ≠ a) :
    (s.writeMsg a v).msgByte b = s.msgByte b := by
  simp [State.msgByte, Memory.lookup_store_other _ _ h]

end Sys2Proof.Machine
end

