-- ==== Sys2Proof/Laws/Run.lean ====
section
/-! SUPPORT. What the shared operations of a command can do, said once: the skeleton of R240 and R258, the padding step
(R169), and the accept step. -/

namespace Sys2Proof.Machine

theorem runCommand_halted (i : Instr) {s : State} (e : Effect) (h : s.fault = true) :
    runCommand i s e = .next s.refuse := by simp [runCommand, h]

theorem runCommand_ok (i : Instr) {s : State} (t : State) (r : Word) (h : s.fault = false) :
    runCommand i s (.ok (t, r)) = .next (t.respond true r) := by simp [runCommand, h]

theorem runCommand_error (i : Instr) {s : State} (f : FaultKind) (h : s.fault = false) :
    runCommand i s (.error f) = .next (s.raise f (encode i)) := by simp [runCommand, h]

/-- Everything the skeleton can do. -/
theorem runCommand_cases {i : Instr} {s t : State} {e : Effect} (h : runCommand i s e = .next t) :
    (s.fault = true ∧ t = s.refuse) ∨
    (s.fault = false ∧ ∃ u r, e = .ok (u, r) ∧ t = u.respond true r) ∨
    (s.fault = false ∧ ∃ f, e = .error f ∧ t = s.raise f (encode i)) := by
  cases hf : s.fault with
  | true =>
    rw [runCommand_halted _ _ hf] at h
    injection h with h
    exact .inl ⟨rfl, h.symm⟩
  | false =>
    cases e with
    | ok p =>
      rw [runCommand_ok _ p.1 p.2 hf] at h
      injection h with h
      exact .inr (.inl ⟨rfl, p.1, p.2, rfl, h.symm⟩)
    | error f =>
      rw [runCommand_error _ _ hf] at h
      injection h with h
      exact .inr (.inr ⟨rfl, f, rfl, h.symm⟩)

/-- The skeleton never stops. -/
theorem runCommand_next (i : Instr) (s : State) (e : Effect) : ∃ t, runCommand i s e = .next t := by
  unfold runCommand
  split
  · exact ⟨_, rfl⟩
  · split <;> exact ⟨_, rfl⟩

theorem runReadOnly_ok (i : Instr) (s : State) (r : Word) :
    runReadOnly i s (.ok r) = .next (s.respond true r) := rfl

theorem runReadOnly_error (i : Instr) {s : State} (f : FaultKind) (h : s.fault = false) :
    runReadOnly i s (.error f) = .next (s.raise f (encode i)) := by simp [runReadOnly, h]

theorem runReadOnly_error_halted (i : Instr) {s : State} (f : FaultKind) (h : s.fault = true) :
    runReadOnly i s (.error f) = .next s.refuse := by simp [runReadOnly, h]

/-- Everything the read-only skeleton can do. -/
theorem runReadOnly_cases {i : Instr} {s t : State} {e : Except FaultKind Word} (h : runReadOnly i s e = .next t) :
    (∃ r, e = .ok r ∧ t = s.respond true r) ∨
    (s.fault = true ∧ ∃ f, e = .error f ∧ t = s.refuse) ∨
    (s.fault = false ∧ ∃ f, e = .error f ∧ t = s.raise f (encode i)) := by
  cases e with
  | ok r =>
    injection h with h
    exact .inl ⟨r, rfl, h.symm⟩
  | error f =>
    cases hf : s.fault with
    | true =>
      rw [runReadOnly_error_halted _ _ hf] at h
      injection h with h
      exact .inr (.inl ⟨rfl, f, rfl, h.symm⟩)
    | false =>
      rw [runReadOnly_error _ _ hf] at h
      injection h with h
      exact .inr (.inr ⟨rfl, f, rfl, h.symm⟩)

theorem runReadOnly_next (i : Instr) (s : State) (e : Except FaultKind Word) : ∃ t, runReadOnly i s e = .next t := by
  unfold runReadOnly
  split
  · exact ⟨_, rfl⟩
  · split <;> exact ⟨_, rfl⟩

/-- What the padding step does (R169). -/
theorem State.ensurePad_cases (s : State) :
    (s.padValid = true ∧ s.ensurePad = .ok s) ∨
    (s.padValid = false ∧ s.bitLen % 8 ≠ 0 ∧ s.ensurePad = .error .paddingAlignment) ∨
    (s.padValid = false ∧ s.bitLen % 8 = 0 ∧ s.ensurePad = .ok s.padWrites) := by
  unfold State.ensurePad
  by_cases h1 : s.padValid = true
  · simp [h1]
  · by_cases h2 : s.bitLen % 8 = 0 <;> simp [h1, h2]

/-- The block count is small: it fits the register (R8, R27). -/
theorem blockCountOf_le {n : Nat} : blockCountOf n ≤ n + 1 := by unfold blockCountOf; omega

theorem State.blocks_lt (s : State) : s.blocks < 2 ^ 32 := by
  have h : s.msgBitlen.toNat < 2 ^ 32 := s.msgBitlen.isLt
  unfold State.blocks blockCountOf State.byteLen State.bitLen
  omega

@[simp] theorem State.padWrites_blkCount_toNat (s : State) : s.padWrites.blkCount.toNat = s.blocks := by
  simp only [State.padWrites_blkCount, BitVec.toNat_ofNat]
  exact Nat.mod_eq_of_lt s.blocks_lt

/-- In a legal state whose length is whole bytes the padding step succeeds and leaves the memo of the present message. -/
theorem State.ensurePad_legal {s : State} (hl : s.Legal) (h8 : s.bitLen % 8 = 0) :
    s.ensurePad = .ok s.padWrites := by
  rcases s.ensurePad_cases with ⟨hp, he⟩ | ⟨_, h, _⟩ | ⟨_, _, he⟩
  · rw [he]
    have hc : s.blkCount = BitVec.ofNat 32 s.blocks := by
      apply BitVec.eq_of_toNat_eq
      rw [(hl.padSet hp).2, BitVec.toNat_ofNat, Nat.mod_eq_of_lt s.blocks_lt]
    unfold State.padWrites
    rw [← hc, ← hp]
  · exact absurd h8 h
  · exact he

theorem State.accept_ok {s : State} {c : Command} {i : Instr} (h : decode c = .ok i) : s.accept c = exec i s := by
  simp [State.accept, h]

theorem State.accept_error {s : State} {c : Command} {e : Illegal} (h : decode c = .error e) :
    s.accept c = s.illegalWord c := by
  simp [State.accept, h]

end Sys2Proof.Machine
end

