-- ==== Sys2Proof/Laws/WordFunctions.lean ====
section
/-! SUPPORT. The Word functions in terms of the operations and lemmas of `BitVec`: sums as `+`, shifts and rotations bit by bit. -/

namespace Sys2Proof.Machine

theorem addW_eq (x y : Word) : addW x y = x + y := by
  apply BitVec.eq_of_toNat_eq
  simp [addW]

theorem xorW_eq (x y : Word) : xorW x y = x ^^^ y := rfl

theorem addAllW_cons (x y : Word) (ys : List Word) : addAllW x (y :: ys) = addAllW (x + y) ys := by
  simp [addAllW, addW_eq]

theorem addAllW_nil (x : Word) : addAllW x [] = x := rfl

theorem shrW_toNat (x : Word) (n : Fin 33) : (shrW x n).toNat = x.toNat / 2 ^ n.val := by
  have h : x.toNat / 2 ^ n.val ≤ x.toNat := Nat.div_le_self _ _
  have := x.isLt
  simp only [shrW, BitVec.toNat_ofNat]
  exact Nat.mod_eq_of_lt (by omega)

theorem shrW_eq (x : Word) (n : Fin 33) : shrW x n = x >>> n.val := by
  apply BitVec.eq_of_toNat_eq
  rw [shrW_toNat, BitVec.toNat_ushiftRight, Nat.shiftRight_eq_div_pow]

theorem getLsbD_shrW (x : Word) (n : Fin 33) (k : Nat) : (shrW x n).getLsbD k = x.getLsbD (k + n.val) := by
  rw [shrW_eq, BitVec.getLsbD_ushiftRight, Nat.add_comm]

theorem rotrW_zero (x : Word) : rotrW x 0 = x := by
  apply BitVec.eq_of_toNat_eq
  have := x.isLt
  simp [rotrW, Nat.mod_one]

theorem rotrW_full (x : Word) : rotrW x 32 = x := by
  apply BitVec.eq_of_toNat_eq
  have := x.isLt
  simp only [rotrW, BitVec.toNat_ofNat]
  show (2 ^ 0 * (x.toNat % 2 ^ 32) + x.toNat / 2 ^ 32) % 2 ^ 32 = x.toNat
  omega

theorem rotrW_eq_or (x : Word) (n : Fin 33) : rotrW x n = x >>> n.val ||| x <<< (32 - n.val) := by
  have hx := x.isLt
  have hn : n.val ≤ 32 := Nat.le_of_lt_succ n.isLt
  apply BitVec.eq_of_getLsbD_eq
  intro k hk
  have hlt : x.toNat / 2 ^ n.val < 2 ^ (32 - n.val) := by
    rw [Nat.div_lt_iff_lt_mul (Nat.two_pow_pos _), ← pow_add, Nat.sub_add_cancel hn]
    exact hx
  simp only [rotrW, BitVec.getLsbD_ofNat, BitVec.getLsbD_or, BitVec.getLsbD_ushiftRight, BitVec.getLsbD_shiftLeft,
    hk, decide_true, Bool.true_and]
  rw [Nat.testBit_two_pow_mul_add _ hlt]
  by_cases h : k < 32 - n.val
  · simp [h, BitVec.getLsbD, Nat.testBit_div_two_pow, Nat.add_comm]
  · have hz : x.getLsbD (n.val + k) = false := BitVec.getLsbD_of_ge _ _ (by omega)
    rw [hz]
    have : k - (32 - n.val) < n.val := by omega
    simp [h, BitVec.getLsbD, Nat.testBit_mod_two_pow, this]

theorem getLsbD_rotrW (x : Word) (n : Fin 33) {k : Nat} (hk : k < 32) :
    (rotrW x n).getLsbD k = x.getLsbD ((k + n.val) % 32) := by
  have hn : n.val ≤ 32 := Nat.le_of_lt_succ n.isLt
  rw [rotrW_eq_or, BitVec.getLsbD_or, BitVec.getLsbD_ushiftRight, BitVec.getLsbD_shiftLeft]
  by_cases h : k < 32 - n.val
  · rw [Nat.mod_eq_of_lt (by omega), Nat.add_comm]
    simp [h]
  · have hz : x.getLsbD (n.val + k) = false := BitVec.getLsbD_of_ge _ _ (by omega)
    have he : (k + n.val) % 32 = k - (32 - n.val) := by omega
    simp [h, hk, hz, he]

/-- The recurrence of R182 as a sum of `BitVec`s. -/
theorem scheduleNext_eq (w : List Word) (t : Nat) :
    scheduleNext w t =
      sigma1W (w.getD (t - 2) 0) + w.getD (t - 7) 0 + sigma0W (w.getD (t - 15) 0) + w.getD (t - 16) 0 := by
  simp only [scheduleNext, addAllW_cons, addAllW_nil]

theorem roundT1_eq (i : Nat) (e f g h w : Word) :
    roundT1 i e f g h w = usigma1W e + chW e f g + h + roundConstant i + w := by
  simp only [roundT1, addAllW_cons, addAllW_nil]

theorem roundT2_eq (a b c : Word) : roundT2 a b c = usigma0W a + majW a b c := by
  rw [roundT2, addW_eq]

end Sys2Proof.Machine
end

