-- ==== Sys2Proof/Laws/Composite.lean ====
section
/-! SUPPORT. The composite commands as one update each: the loops of R186, R207 and R230 over record updates become the same
loops over the one field they write. -/

namespace Sys2Proof.Machine

/-- A loop of WSTEP writes is a loop over `W` alone. -/
theorem foldl_wstepWrites (ts : List Nat) (s : State) :
    ts.foldl State.wstepWrites s = { s with w := ts.foldl (fun w t => w ++ [scheduleNext w t]) s.w } := by
  induction ts generalizing s with
  | nil => rfl
  | cons t ts ih => rw [List.foldl_cons, ih, List.foldl_cons]; rfl

/-- A loop of ROUND writes is a loop over `V` alone. -/
theorem foldl_roundWrites (is : List Nat) (s : State) :
    is.foldl State.roundWrites s = { s with v := is.foldl (fun v i => roundFn i v (s.schedWord i)) s.v } := by
  induction is generalizing s with
  | nil => rfl
  | cons i is ih => rw [List.foldl_cons, ih, List.foldl_cons]; rfl

theorem extendSchedule_length (w : List Word) : (extendSchedule w).length = w.length + 1 := by
  simp [extendSchedule]

theorem extendScheduleN_length (n : Nat) (w : List Word) : (extendScheduleN n w).length = w.length + n := by
  induction n generalizing w with
  | zero => rfl
  | succ n ih => rw [extendScheduleN, ih, extendSchedule_length]; omega

theorem extendScheduleN_succ (n : Nat) (w : List Word) :
    extendScheduleN (n + 1) w = extendSchedule (extendScheduleN n w) := by
  induction n generalizing w with
  | zero => rfl
  | succ n ih => rw [extendScheduleN, ih, extendScheduleN]

theorem extendSchedule_eq (w : List Word) : extendSchedule w = w ++ [scheduleNext w w.length] := by
  rw [scheduleNext_eq]
  rfl

/-- The steps WSTEP t, WSTEP t+1, … from a schedule of t words are the steps of the recurrence. -/
theorem foldl_scheduleNext (n : Nat) (w : List Word) :
    (List.range' w.length n).foldl (fun w t => w ++ [scheduleNext w t]) w = extendScheduleN n w := by
  induction n generalizing w with
  | zero => rfl
  | succ n ih =>
    rw [List.range'_succ, List.foldl_cons, ← extendSchedule_eq, extendScheduleN, ← ih, extendSchedule_length]

/-- EXPAND as one update. -/
theorem State.expandWrites_eq (s : State) (idx : Nat) :
    s.expandWrites idx = { s with
      w := extendScheduleN 48 ((List.range 16).map (s.blockWord idx)), schedIdx := BitVec.ofNat 24 idx } := by
  unfold State.expandWrites State.wstepAllWrites
  rw [foldl_wstepWrites]
  have h := foldl_scheduleNext 48 (s.wloadWrites idx).w
  simp only [State.wloadWrites_w, List.length_map, List.length_range] at h
  rw [State.wloadWrites_w, h]
  rfl

theorem roundsFn_succ (n : Nat) (v : Words8) (sched : List Word) :
    roundsFn (n + 1) v sched = roundFn n (roundsFn n v sched) (sched.getD n 0) := by
  simp [roundsFn, List.range_succ]

theorem roundsFn_zero (v : Words8) (sched : List Word) : roundsFn 0 v sched = v := rfl

/-- COMPRESS as one update. -/
theorem State.compressWrites_eq (s : State) :
    s.compressWrites = { s with
      v := roundsFn 64 s.h s.w, h := compressFn s.h s.w, digestValid := false } := by
  unfold State.compressWrites State.roundAllWrites
  rw [foldl_roundWrites]
  rfl

/-- One block of HASH as one update. -/
theorem State.hashBlock_eq (s : State) (idx : Nat) :
    s.hashBlock idx = { s with
      w := extendScheduleN 48 ((List.range 16).map (s.blockWord idx))
      schedIdx := BitVec.ofNat 24 idx
      v := roundsFn 64 s.h (extendScheduleN 48 ((List.range 16).map (s.blockWord idx)))
      h := compressFn s.h (extendScheduleN 48 ((List.range 16).map (s.blockWord idx)))
      digestValid := false } := by
  unfold State.hashBlock
  rw [State.compressWrites_eq, State.expandWrites_eq]

end Sys2Proof.Machine
end

