-- ==== Sys2Proof/Laws/PerInstr.lean ====
section
/-! SUPPORT. Per-instruction facts about encoding: the word a well-formed command assembles to carries its opcode in bits 31:24 and
its fields in bits 23:0 (R93, R100). -/

namespace Sys2Proof.Laws.WordCarriesOpcode

/-- The assembled word of a well-formed command, cut into the opcode and `imm24` (R93). -/
def Statement (i : Instr) : Prop :=
  i.wellFormed = true → bits (encode i).cmd 31 24 = i.opcode ∧ bits (encode i).cmd 23 0 = i.imm24

/-- A word assembled from an 8-bit opcode and 24 bits comes apart into them again. -/
theorem bits_word {op imm : Nat} (ho : op < 2 ^ 8) (hi : imm < 2 ^ 24) :
    bits (BitVec.ofNat 32 (op * 2 ^ 24 + imm)) 31 24 = op ∧ bits (BitVec.ofNat 32 (op * 2 ^ 24 + imm)) 23 0 = imm := by
  simp only [bits, BitVec.toNat_ofNat]
  omega

theorem nop (wdata : Word) : Statement (.nop wdata) :=
  fun _ => bits_word (imm := 0) (by simp [Instr.opcode]) (by decide)

theorem rdreg (r8 : Nat) (wdata : Word) : Statement (.rdreg r8 wdata) := by
  intro h
  have h := of_decide_eq_true h
  exact bits_word (by simp [Instr.opcode]) (by simp only [Instr.imm24]; omega)

theorem wrreg (r8 : Nat) (wdata : Word) : Statement (.wrreg r8 wdata) := by
  intro h
  have h := of_decide_eq_true h
  exact bits_word (by simp [Instr.opcode]) (by simp only [Instr.imm24]; omega)

theorem init (wdata : Word) : Statement (.init wdata) :=
  fun _ => bits_word (imm := 0) (by simp [Instr.opcode]) (by decide)

theorem hash (wdata : Word) : Statement (.hash wdata) :=
  fun _ => bits_word (imm := 0) (by simp [Instr.opcode]) (by decide)

theorem msgwr (a24 : Nat) (wdata : Word) : Statement (.msgwr a24 wdata) := by
  intro h
  have h := of_decide_eq_true h
  exact bits_word (by simp [Instr.opcode]) (by simp only [Instr.imm24]; omega)

theorem msgrd (a24 : Nat) (wdata : Word) : Statement (.msgrd a24 wdata) := by
  intro h
  have h := of_decide_eq_true h
  exact bits_word (by simp [Instr.opcode]) (by simp only [Instr.imm24]; omega)

theorem pad (wdata : Word) : Statement (.pad wdata) :=
  fun _ => bits_word (imm := 0) (by simp [Instr.opcode]) (by decide)

theorem padrd (a24 : Nat) (wdata : Word) : Statement (.padrd a24 wdata) := by
  intro h
  have h := of_decide_eq_true h
  exact bits_word (by simp [Instr.opcode]) (by simp only [Instr.imm24]; omega)

theorem wload (a24 : Nat) (wdata : Word) : Statement (.wload a24 wdata) := by
  intro h
  have h := of_decide_eq_true h
  exact bits_word (by simp [Instr.opcode]) (by simp only [Instr.imm24]; omega)

theorem wstep (t6 : Nat) (wdata : Word) : Statement (.wstep t6 wdata) := by
  intro h
  have h := of_decide_eq_true h
  exact bits_word (by simp [Instr.opcode]) (by simp only [Instr.imm24]; omega)

theorem expand (a24 : Nat) (wdata : Word) : Statement (.expand a24 wdata) := by
  intro h
  have h := of_decide_eq_true h
  exact bits_word (by simp [Instr.opcode]) (by simp only [Instr.imm24]; omega)

theorem cload (wdata : Word) : Statement (.cload wdata) :=
  fun _ => bits_word (imm := 0) (by simp [Instr.opcode]) (by decide)

theorem round (t6 : Nat) (wdata : Word) : Statement (.round t6 wdata) := by
  intro h
  have h := of_decide_eq_true h
  exact bits_word (by simp [Instr.opcode]) (by simp only [Instr.imm24]; omega)

theorem cfold (wdata : Word) : Statement (.cfold wdata) :=
  fun _ => bits_word (imm := 0) (by simp [Instr.opcode]) (by decide)

theorem compress (wdata : Word) : Statement (.compress wdata) :=
  fun _ => bits_word (imm := 0) (by simp [Instr.opcode]) (by decide)

theorem wldi (rd : XReg) (hi8 : Nat) (wdata : Word) : Statement (.wldi rd hi8 wdata) := by
  intro h
  have h := of_decide_eq_true h
  exact bits_word (by simp [Instr.opcode]) (by simp only [Instr.imm24]; omega)

theorem wldb (rd : XReg) (nb3 : Nat) (wdata : Word) : Statement (.wldb rd nb3 wdata) := by
  intro h
  have h := of_decide_eq_true h
  exact bits_word (by simp [Instr.opcode]) (by simp only [Instr.imm24]; omega)

theorem add (rd ra rb : XReg) (wdata : Word) : Statement (.add rd ra rb wdata) := by
  intro h
  exact bits_word (by simp [Instr.opcode]) (by simp only [Instr.imm24]; omega)

theorem shr (rd ra : XReg) (n6 : Nat) (wdata : Word) : Statement (.shr rd ra n6 wdata) := by
  intro h
  have h := of_decide_eq_true h
  exact bits_word (by simp [Instr.opcode]) (by simp only [Instr.imm24]; omega)

theorem rotr (rd ra : XReg) (n6 : Nat) (wdata : Word) : Statement (.rotr rd ra n6 wdata) := by
  intro h
  have h := of_decide_eq_true h
  exact bits_word (by simp [Instr.opcode]) (by simp only [Instr.imm24]; omega)

theorem xor (rd ra rb : XReg) (wdata : Word) : Statement (.xor rd ra rb wdata) := by
  intro h
  exact bits_word (by simp [Instr.opcode]) (by simp only [Instr.imm24]; omega)

theorem ch (rd ra rb rc : XReg) (wdata : Word) : Statement (.ch rd ra rb rc wdata) := by
  intro h
  exact bits_word (by simp [Instr.opcode]) (by simp only [Instr.imm24]; omega)

theorem maj (rd ra rb rc : XReg) (wdata : Word) : Statement (.maj rd ra rb rc wdata) := by
  intro h
  exact bits_word (by simp [Instr.opcode]) (by simp only [Instr.imm24]; omega)

theorem sigma0 (rd ra : XReg) (wdata : Word) : Statement (.sigma0 rd ra wdata) := by
  intro h
  exact bits_word (by simp [Instr.opcode]) (by simp only [Instr.imm24]; omega)

theorem sigma1 (rd ra : XReg) (wdata : Word) : Statement (.sigma1 rd ra wdata) := by
  intro h
  exact bits_word (by simp [Instr.opcode]) (by simp only [Instr.imm24]; omega)

theorem usigma0 (rd ra : XReg) (wdata : Word) : Statement (.usigma0 rd ra wdata) := by
  intro h
  exact bits_word (by simp [Instr.opcode]) (by simp only [Instr.imm24]; omega)

theorem usigma1 (rd ra : XReg) (wdata : Word) : Statement (.usigma1 rd ra wdata) := by
  intro h
  exact bits_word (by simp [Instr.opcode]) (by simp only [Instr.imm24]; omega)

theorem weq (ra rb : XReg) (wdata : Word) : Statement (.weq ra rb wdata) := by
  intro h
  exact bits_word (by simp [Instr.opcode]) (by simp only [Instr.imm24]; omega)

end Sys2Proof.Laws.WordCarriesOpcode
end

