-- ==== Sys2Proof/Laws/Decode.lean ====
section
/-! SUPPORT. Taking the decoder apart: one elimination lemma for each conditional it is made of. -/

namespace Sys2Proof

/-- What a conditional of the decoder answers, by cases on its condition. -/
theorem decode_ite_elim {c : Prop} [Decidable c] {a b : Except Illegal Instr} {i : Instr} {P : Prop}
    (h : (if c then a else b) = .ok i) (pos : c → a = .ok i → P) (neg : b = .ok i → P) : P := by
  split at h
  · exact pos ‹_› h
  · exact neg h

/-- A format with must-be-zero bits answers only if they are zero (R97 (b)). -/
theorem ifZero_elim {mbz : Nat} {j i : Instr} {P : Prop} (h : ifZero mbz j = .ok i) (pos : mbz = 0 → j = i → P) : P := by
  unfold ifZero at h
  split at h
  · injection h with h
    exact pos ‹_› h
  · cases h

/-- Words are equal when the numbers they are assembled from are (R100). -/
theorem encode_eq {i : Instr} {c : Command} (hd : i.wdata = c.wdata) (h : i.opcode * 2 ^ 24 + i.imm24 = c.cmd.toNat) :
    encode i = c := by
  obtain ⟨cmd, d⟩ := c
  unfold encode
  rw [hd, h]
  congr 1
  simp

/-- A register field is the register whose number stands in the bits. -/
theorem xregField_eq {v : Word} {lo : Nat} {r : XReg} (h : v.toNat / 2 ^ lo % 4 = r.val) : xregField v lo = r :=
  Fin.ext h

end Sys2Proof
end

