-- ==== Sys2Proof/Laws/Exec.lean ====
section
/-! SUPPORT. Each command as the skeleton that runs it (R240) over its own effect: the equation a proof cites instead of unfolding
`exec`. -/

namespace Sys2Proof.Machine

theorem exec_nop (wdata : Word) (s : State) :
    exec (.nop wdata) s = runReadOnly (.nop wdata) s (.ok 0) := rfl

theorem exec_rdreg (r8 : Nat) (wdata : Word) (s : State) :
    exec (.rdreg r8 wdata) s = runReadOnly (.rdreg r8 wdata) s (s.readReg r8) := rfl

theorem exec_wrreg (r8 : Nat) (wdata : Word) (s : State) :
    exec (.wrreg r8 wdata) s = runCommand (.wrreg r8 wdata) s
      (if r8 ≠ 0x04 then .error .illegalOperand
      else if 8 * s.msgCap < wdata.toNat then .error .illegalOperand
      else .ok (s.setBitlen wdata, 0)) := rfl

theorem exec_init (wdata : Word) (s : State) :
    exec (.init wdata) s = runCommand (.init wdata) s (.ok (s.initWrites, 0)) := rfl

theorem exec_hash (wdata : Word) (s : State) :
    exec (.hash wdata) s = runCommand (.hash wdata) s
      (match s.initWrites.ensurePad with
      | .error f => .error f
      | .ok t => .ok (t.hashBlocks, 0)) := rfl

theorem exec_msgwr (a24 : Nat) (wdata : Word) (s : State) :
    exec (.msgwr a24 wdata) s = runCommand (.msgwr a24 wdata) s
      (if s.msgCap ≤ a24 then .error .illegalOperand
      else .ok ((s.writeMsg a24 (lowByte wdata)).clearMemos, 0)) := rfl

theorem exec_msgrd (a24 : Nat) (wdata : Word) (s : State) :
    exec (.msgrd a24 wdata) s = runCommand (.msgrd a24 wdata) s
      (if s.msgCap ≤ a24 then .error .illegalOperand
      else .ok (s, zext32 (s.msgByte a24))) := rfl

theorem exec_pad (wdata : Word) (s : State) :
    exec (.pad wdata) s = runCommand (.pad wdata) s
      (match s.ensurePad with
      | .error f => .error f
      | .ok t => .ok (t, 0)) := rfl

theorem exec_padrd (a24 : Nat) (wdata : Word) (s : State) :
    exec (.padrd a24 wdata) s = runCommand (.padrd a24 wdata) s
      (match s.ensurePad with
      | .error f => .error f
      | .ok t =>
        if 64 * t.blkCount.toNat ≤ a24 then .error .illegalOperand
        else .ok (t, zext32 (t.paddedByte a24))) := rfl

theorem exec_wload (a24 : Nat) (wdata : Word) (s : State) :
    exec (.wload a24 wdata) s = runCommand (.wload a24 wdata) s
      (match s.ensurePad with
      | .error f => .error f
      | .ok t =>
        if t.blkCount.toNat ≤ a24 then .error .indexOutOfRange
        else .ok (t.wloadWrites a24, 0)) := rfl

theorem exec_wstep (t6 : Nat) (wdata : Word) (s : State) :
    exec (.wstep t6 wdata) s = runCommand (.wstep t6 wdata) s
      (if t6 < 16 then .error .illegalOperand
      else if t6 ≠ s.schedFill then .error .scheduleContract
      else .ok (s.wstepWrites t6, 0)) := rfl

theorem exec_expand (a24 : Nat) (wdata : Word) (s : State) :
    exec (.expand a24 wdata) s = runCommand (.expand a24 wdata) s
      (match s.ensurePad with
      | .error f => .error f
      | .ok t =>
        if t.blkCount.toNat ≤ a24 then .error .indexOutOfRange
        else .ok (t.expandWrites a24, 0)) := rfl

theorem exec_cload (wdata : Word) (s : State) :
    exec (.cload wdata) s = runCommand (.cload wdata) s (.ok (s.cloadWrites, 0)) := rfl

theorem exec_round (t6 : Nat) (wdata : Word) (s : State) :
    exec (.round t6 wdata) s = runCommand (.round t6 wdata) s
      (if s.schedFill ≤ t6 then .error .scheduleContract else .ok (s.roundWrites t6, 0)) := rfl

theorem exec_cfold (wdata : Word) (s : State) :
    exec (.cfold wdata) s = runCommand (.cfold wdata) s (.ok (s.cfoldWrites, 0)) := rfl

theorem exec_compress (wdata : Word) (s : State) :
    exec (.compress wdata) s = runCommand (.compress wdata) s
      (if s.schedFill ≠ 64 then .error .scheduleContract else .ok (s.compressWrites, 0)) := rfl

theorem exec_wldi (rd : XReg) (hi8 : Nat) (wdata : Word) (s : State) :
    exec (.wldi rd hi8 wdata) s = runCommand (.wldi rd hi8 wdata) s
      (match wordFromInt (wldiOperand hi8 wdata) with
      | none => .error .invalidLength
      | some r => .ok (s.setResult rd r)) := rfl

theorem exec_wldb (rd : XReg) (nb3 : Nat) (wdata : Word) (s : State) :
    exec (.wldb rd nb3 wdata) s = runCommand (.wldb rd nb3 wdata) s
      (match wordFromBytes (wldbOperand nb3 wdata) with
      | none => .error .invalidLength
      | some r => .ok (s.setResult rd r)) := rfl

theorem exec_add (rd ra rb : XReg) (wdata : Word) (s : State) :
    exec (.add rd ra rb wdata) s = runCommand (.add rd ra rb wdata) s (.ok (s.setResult rd (addW (s.readX ra) (s.readX rb)))) := rfl

theorem exec_shr (rd ra : XReg) (n6 : Nat) (wdata : Word) (s : State) :
    exec (.shr rd ra n6 wdata) s = runCommand (.shr rd ra n6 wdata) s
      (if h : n6 ≤ 32 then .ok (s.setResult rd (shrW (s.readX ra) ⟨n6, Nat.lt_succ_of_le h⟩))
      else .error .illegalOperand) := rfl

theorem exec_rotr (rd ra : XReg) (n6 : Nat) (wdata : Word) (s : State) :
    exec (.rotr rd ra n6 wdata) s = runCommand (.rotr rd ra n6 wdata) s
      (if h : n6 ≤ 32 then .ok (s.setResult rd (rotrW (s.readX ra) ⟨n6, Nat.lt_succ_of_le h⟩))
      else .error .illegalOperand) := rfl

theorem exec_xor (rd ra rb : XReg) (wdata : Word) (s : State) :
    exec (.xor rd ra rb wdata) s = runCommand (.xor rd ra rb wdata) s (.ok (s.setResult rd (xorW (s.readX ra) (s.readX rb)))) := rfl

theorem exec_ch (rd ra rb rc : XReg) (wdata : Word) (s : State) :
    exec (.ch rd ra rb rc wdata) s = runCommand (.ch rd ra rb rc wdata) s
      (.ok (s.setResult rd (chW (s.readX ra) (s.readX rb) (s.readX rc)))) := rfl

theorem exec_maj (rd ra rb rc : XReg) (wdata : Word) (s : State) :
    exec (.maj rd ra rb rc wdata) s = runCommand (.maj rd ra rb rc wdata) s
      (.ok (s.setResult rd (majW (s.readX ra) (s.readX rb) (s.readX rc)))) := rfl

theorem exec_sigma0 (rd ra : XReg) (wdata : Word) (s : State) :
    exec (.sigma0 rd ra wdata) s = runCommand (.sigma0 rd ra wdata) s (.ok (s.setResult rd (sigma0W (s.readX ra)))) := rfl

theorem exec_sigma1 (rd ra : XReg) (wdata : Word) (s : State) :
    exec (.sigma1 rd ra wdata) s = runCommand (.sigma1 rd ra wdata) s (.ok (s.setResult rd (sigma1W (s.readX ra)))) := rfl

theorem exec_usigma0 (rd ra : XReg) (wdata : Word) (s : State) :
    exec (.usigma0 rd ra wdata) s = runCommand (.usigma0 rd ra wdata) s (.ok (s.setResult rd (usigma0W (s.readX ra)))) := rfl

theorem exec_usigma1 (rd ra : XReg) (wdata : Word) (s : State) :
    exec (.usigma1 rd ra wdata) s = runCommand (.usigma1 rd ra wdata) s (.ok (s.setResult rd (usigma1W (s.readX ra)))) := rfl

theorem exec_weq (ra rb : XReg) (wdata : Word) (s : State) :
    exec (.weq ra rb wdata) s = runCommand (.weq ra rb wdata) s (.ok (s, if eqW (s.readX ra) (s.readX rb) then 1 else 0)) := rfl

end Sys2Proof.Machine
end

