-- ==== Sys2Proof/Laws/Digest.lean ====
section
/-! SUPPORT. The digest definitions: what a message depends on, lengths, and one step of each recursion. The equalities are for
rewriting: a proof that leaves two chains of rounds or two schedules to a definitional check makes the kernel run them. -/

namespace Sys2Proof.Machine

/-- The message depends on the memory, the length and the epoch of the unwritten bytes only. -/
theorem State.message_congr {s t : State} (hm : t.msg = s.msg) (hl : t.msgBitlen = s.msgBitlen)
    (he : t.msgEpoch = s.msgEpoch) : t.message = s.message := by
  unfold State.message State.byteLen State.bitLen
  rw [hl]
  apply List.map_congr_left
  intro a _
  unfold State.msgByte
  rw [hm, he]

theorem State.blocks_congr {s t : State} (hl : t.msgBitlen = s.msgBitlen) : t.blocks = s.blocks := by
  unfold State.blocks State.byteLen State.bitLen
  rw [hl]

@[simp] theorem State.message_length (s : State) : s.message.length = s.byteLen := by simp [State.message]

theorem State.blocks_pos (s : State) : 0 < s.blocks := Nat.succ_pos _

/-- A block index fits `SCHED_IDX`. -/
theorem State.idx_toNat {s : State} {idx : Nat} (h : idx < s.blocks) : (BitVec.ofNat 24 idx).toNat = idx := by
  have hb : s.msgBitlen.toNat < 2 ^ 32 := s.msgBitlen.isLt
  unfold State.blocks blockCountOf State.byteLen State.bitLen at h
  rw [BitVec.toNat_ofNat]
  exact Nat.mod_eq_of_lt (by omega)

theorem beBytes_length (n v : Nat) : (beBytes n v).length = n := by
  induction n with
  | zero => rfl
  | succ n ih => simp [beBytes, ih]

/-- Byte k of a big-endian number. -/
theorem beBytes_getD (n v k : Nat) (h : k < n) : (beBytes n v).getD k 0 = BitVec.ofNat 8 (v / 2 ^ (8 * (n - 1 - k))) := by
  induction n generalizing k with
  | zero => omega
  | succ n ih =>
    cases k with
    | zero => simp [beBytes]
    | succ k =>
      simp only [beBytes, List.getD_cons_succ]
      rw [ih k (by omega)]
      congr 4
      omega

theorem blockWordsOf_length (bs : List Byte) (idx : Nat) : (blockWordsOf bs idx).length = 16 := by simp [blockWordsOf]

theorem scheduleOf_length (bs : List Byte) (idx : Nat) : (scheduleOf bs idx).length = 64 := by
  simp [scheduleOf, extendScheduleN_length, blockWordsOf_length]

/-- The recurrence keeps the entries it has. -/
theorem extendScheduleN_getD (n : Nat) (w : List Word) {t : Nat} (ht : t < w.length) :
    (extendScheduleN n w).getD t 0 = w.getD t 0 := by
  induction n generalizing w with
  | zero => rfl
  | succ n ih =>
    rw [extendScheduleN, ih _ (by rw [extendSchedule_length]; omega), extendSchedule]
    exact List.getD_append _ _ _ _ ht

theorem extendScheduleN_add (a b : Nat) (w : List Word) :
    extendScheduleN (a + b) w = extendScheduleN b (extendScheduleN a w) := by
  induction a generalizing w with
  | zero => simp [extendScheduleN]
  | succ a ih => rw [Nat.succ_add, extendScheduleN, ih, extendScheduleN]

theorem chain_zero (bs : List Byte) : chain bs 0 = HINIT := rfl

theorem chain_succ (bs : List Byte) (k : Nat) :
    chain bs (k + 1) = compressFn (chain bs k) (scheduleOf bs k) := rfl

end Sys2Proof.Machine
end

