-- ==== Sys2Proof/Tests/Slice0.lean ====
section
/-! SUPPORT. Tests and witnesses. Expected values are the spec's: words from R93, R95 and R100, results from 95_test_vectors.md, cited by
section. A witness shows a concrete state and operands that meet all hypotheses of the obligation it is named after. -/

namespace Sys2Proof.Tests

open Sys2Proof.Machine

/-! ### Helpers -/

/-- The state an outcome goes on with. -/
def after : Result → Option State
  | .next t => some t
  | .fault _ => none
  | .refused _ => none

/-- The host offers one command to s. -/
def offer (s : State) (cmd data : Word) : State := { s with pending := [.command ⟨cmd, data⟩] }

/-- A field of the state after one step that takes the command. -/
def see {α : Type} (f : State → α) (s : State) (cmd data : Word) : Option α := (after (step (offer s cmd data))).map f

/-- A legal command answered (1, r). -/
def ok (r : Word) : Option (Option Response) := some (some ⟨true, r⟩)

/-- The fault record and the status after a fault: `ERR`, `ERR_CMD`, `ERR_DATA`, `STATUS`. -/
def record (s : State) : BitVec 4 × Word × Word × Word := (s.err, s.errCmd, s.errData, s.status)

/-- Reset with the given `X[0..2]`. -/
def withX (a b c : Word) : State := { State.reset with x := #v[a, b, c, 0] }

/-- Reset with "abc" written and the length 24. -/
def abc : State := { State.reset with msg := [(0, 0x61), (1, 0x62), (2, 0x63)], msgBitlen := 24 }

/-- The 16 words of the block of "abc" (4.1). -/
def abcBlock : List Word := [0x61626380, 0, 0, 0, 0, 0, 0, 0, 0, 0, 0, 0, 0, 0, 0, 0x18]

/-- `abc` after WLOAD 0. -/
def abcLoaded : State := { abc with padValid := true, blkCount := 1, w := abcBlock }

/-- Reset, halted by an illegal word. -/
def halted : State := { State.reset with fault := true, err := 5, errCmd := 0x05000000 }

/-- The digests of SA §8, as `H` (E4). -/
def digestAbc : Words8 :=
  ⟨0xba7816bf, 0x8f01cfea, 0x414140de, 0x5dae2223, 0xb00361a3, 0x96177a9c, 0xb410ff61, 0xf20015ad⟩

def digestEmpty : Words8 :=
  ⟨0xe3b0c442, 0x98fc1c14, 0x9afbf4c8, 0x996fb924, 0x27ae41e4, 0x649b934c, 0xa495991b, 0x7852b855⟩

/-! ### Decoding: one word for each command, written out from R93, R95, R100 -/

theorem test_decode_nop : decode ⟨0x00000000, 0xdeadbeef⟩ = .ok (.nop 0xdeadbeef) := rfl

theorem test_decode_rdreg : decode ⟨0x010000bf, 0⟩ = .ok (.rdreg 0xbf 0) := rfl

theorem test_decode_wrreg : decode ⟨0x02000004, 0x18⟩ = .ok (.wrreg 4 0x18) := rfl

theorem test_decode_init : decode ⟨0x03000000, 0⟩ = .ok (.init 0) := rfl

theorem test_decode_hash : decode ⟨0x04000000, 0⟩ = .ok (.hash 0) := rfl

theorem test_decode_msgwr : decode ⟨0x10000002, 0x63⟩ = .ok (.msgwr 2 0x63) := rfl

theorem test_decode_msgrd : decode ⟨0x11000fff, 0⟩ = .ok (.msgrd 4095 0) := rfl

theorem test_decode_pad : decode ⟨0x12000000, 0⟩ = .ok (.pad 0) := rfl

theorem test_decode_padrd : decode ⟨0x1300003f, 0⟩ = .ok (.padrd 63 0) := rfl

theorem test_decode_wload : decode ⟨0x20ffffff, 0⟩ = .ok (.wload 0xffffff 0) := rfl

theorem test_decode_wstep : decode ⟨0x21000011, 0⟩ = .ok (.wstep 17 0) := rfl

theorem test_decode_expand : decode ⟨0x22000005, 0⟩ = .ok (.expand 5 0) := rfl

theorem test_decode_cload : decode ⟨0x30000000, 0⟩ = .ok (.cload 0) := rfl

theorem test_decode_round : decode ⟨0x3100003f, 0⟩ = .ok (.round 63 0) := rfl

theorem test_decode_cfold : decode ⟨0x32000000, 0⟩ = .ok (.cfold 0) := rfl

theorem test_decode_compress : decode ⟨0x33000000, 0⟩ = .ok (.compress 0) := rfl

theorem test_decode_wldi : decode ⟨0x40c00001, 0xffffffff⟩ = .ok (.wldi 3 1 0xffffffff) := rfl

theorem test_decode_wldb : decode ⟨0x41400004, 0x61626364⟩ = .ok (.wldb 1 4 0x61626364) := rfl

theorem test_decode_add : decode ⟨0x42840000, 0⟩ = .ok (.add 2 0 1 0) := rfl

theorem test_decode_shr : decode ⟨0x43400020, 0⟩ = .ok (.shr 1 0 32 0) := rfl

theorem test_decode_rotr : decode ⟨0x44400007, 0⟩ = .ok (.rotr 1 0 7 0) := rfl

theorem test_decode_xor : decode ⟨0x45840000, 0⟩ = .ok (.xor 2 0 1 0) := rfl

theorem test_decode_ch : decode ⟨0x46c60000, 0⟩ = .ok (.ch 3 0 1 2 0) := rfl

theorem test_decode_maj : decode ⟨0x47c60000, 0⟩ = .ok (.maj 3 0 1 2 0) := rfl

theorem test_decode_sigma0 : decode ⟨0x48400000, 0⟩ = .ok (.sigma0 1 0 0) := rfl

theorem test_decode_sigma1 : decode ⟨0x49400000, 0⟩ = .ok (.sigma1 1 0 0) := rfl

theorem test_decode_usigma0 : decode ⟨0x4ae00000, 0⟩ = .ok (.usigma0 3 2 0) := rfl

theorem test_decode_usigma1 : decode ⟨0x4b400000, 0⟩ = .ok (.usigma1 1 0 0) := rfl

theorem test_decode_weq : decode ⟨0x4c040000, 0⟩ = .ok (.weq 0 1 0) := rfl

/-- The words of 7.2 match no command. -/
theorem test_decode_illegal :
    ([0x00000001, 0x03000001, 0x05000000, 0x0f000000, 0x14000000, 0x23000000, 0x34000000, 0x4d000000, 0x50000000,
      0xff000000, 0x01000100, 0x21000040, 0x31000040, 0x42840001, 0x42850000, 0x43440003, 0x43400043, 0x48440000,
      0x4c440000, 0x40000100, 0x41400008, 0x46c60001] : List Word).all (fun c => !(decode ⟨c, 0⟩).isOk) = true := rfl

theorem test_decode_table_word : decodeTableWord 32 0x42840000 = some (.add 2 0 1 0) := by decide

theorem test_decode_table_word_illegal : decodeTableWord 32 0x4d000000 = none := by decide

/-- The words printed in R100 are what the encoder assembles. -/
theorem test_encode :
    encode (.add 2 0 1 0) = ⟨0x42840000, 0⟩ ∧ encode (.rotr 1 0 7 0) = ⟨0x44400007, 0⟩ ∧
    encode (.ch 3 0 1 2 0) = ⟨0x46c60000, 0⟩ ∧ encode (.msgwr 2 0x63) = ⟨0x10000002, 0x63⟩ ∧
    encode (.wrreg 4 24) = ⟨0x02000004, 24⟩ ∧ encode (.wldi 0 0 0x6a09e667) = ⟨0x40000000, 0x6a09e667⟩ := by decide

/-! ### Well-formedness: a term that no word stands for is refused, for each field (R94) -/

theorem test_ill_formed_rdreg : (Instr.rdreg 256 0).wellFormed = false := by decide

theorem test_ill_formed_wrreg : (Instr.wrreg 256 0).wellFormed = false := by decide

theorem test_ill_formed_msgwr : (Instr.msgwr 16777216 0).wellFormed = false := by decide

theorem test_ill_formed_msgrd : (Instr.msgrd 16777216 0).wellFormed = false := by decide

theorem test_ill_formed_padrd : (Instr.padrd 16777216 0).wellFormed = false := by decide

theorem test_ill_formed_wload : (Instr.wload 16777216 0).wellFormed = false := by decide

theorem test_ill_formed_wstep : (Instr.wstep 64 0).wellFormed = false := by decide

theorem test_ill_formed_expand : (Instr.expand 16777216 0).wellFormed = false := by decide

theorem test_ill_formed_round : (Instr.round 64 0).wellFormed = false := by decide

theorem test_ill_formed_wldi : (Instr.wldi 0 256 0).wellFormed = false := by decide

theorem test_ill_formed_wldb : (Instr.wldb 0 8 0).wellFormed = false := by decide

theorem test_ill_formed_shr : (Instr.shr 0 0 64 0).wellFormed = false := by decide

theorem test_ill_formed_rotr : (Instr.rotr 0 0 64 0).wellFormed = false := by decide

/-! ### One step of each command -/

/-- 7.1 -/
theorem test_nop : see (·.rsp) State.reset 0x00000000 0xdeadbeef = ok 0 := by decide

/-- 7.1: `MSG_CAP`, `K[63]`, `HINIT[7]` -/
theorem test_rdreg :
    see (·.rsp) State.reset 0x01000008 0 = ok 0x1000 ∧ see (·.rsp) State.reset 0x010000bf 0 = ok 0xc67178f2 ∧
    see (·.rsp) State.reset 0x010000c7 0 = ok 0x5be0cd19 := by decide

/-- R36, R222: 0x09 is unmapped -/
theorem test_rdreg_unmapped : see record State.reset 0x01000009 0 = some (6, 0x01000009, 0, 8) := by decide

/-- 3.3, R38 -/
theorem test_wrreg :
    see (fun s => (s.msgBitlen, s.status, s.w)) abcLoaded 0x02000004 0x00008000 = some (0x8000, 0, []) := by decide

/-- R223: one bit more than 8 · `MSG_CAP` -/
theorem test_wrreg_too_long : see record State.reset 0x02000004 32769 = some (6, 0x02000004, 32769, 8) := by decide

/-- R224 -/
theorem test_init :
    see (fun s => (s.h, s.digestValid)) { State.reset with h := Words8.zero, digestValid := true } 0x03000000 0 =
      some (HINIT, false) := by decide

set_option maxRecDepth 100000 in
/-- E4, 6: the digest of "abc" -/
theorem test_hash_abc : see (fun s => (s.h, s.status)) abc 0x04000000 0 = some (digestAbc, 7) := by decide

/-- 8: a length that is not whole bytes -/
theorem test_hash_alignment :
    see record { State.reset with msgBitlen := 1 } 0x04000000 0 = some (2, 0x04000000, 0, 8) := by decide

/-- 3.3: only `wdata[7:0]` is used -/
theorem test_msgwr : see (fun s => s.msgByte 0) abc 0x10000000 0x00000100 = some 0 := by decide

/-- R167: the last address of the memory, and the one beyond it -/
theorem test_msgwr_range :
    see (fun s => (s.msgByte 4095, s.msgByte 2)) abc 0x10000fff 0x000000ff = some (0xff, 0x63) ∧
    see record abc 0x10001000 0xff = some (6, 0x10001000, 0xff, 8) := by decide

/-- 3.3 -/
theorem test_msgrd : see (·.rsp) abc 0x11000002 0 = ok 0x63 := by decide

/-- 3.3: the empty message -/
theorem test_pad : see (fun s => (s.blkCount, s.status)) State.reset 0x12000000 0 = some (1, 1) := by decide

/-- 3.1: 56 bytes need two blocks; 8: 20 bits are no whole bytes -/
theorem test_pad_lengths :
    see (·.blkCount) { State.reset with msgBitlen := 448 } 0x12000000 0 = some 2 ∧
    see (·.blkCount) { State.reset with msgBitlen := 440 } 0x12000000 0 = some 1 ∧
    see record { State.reset with msgBitlen := 20 } 0x12000000 0 = some (2, 0x12000000, 0, 8) := by decide

/-- 3.3 -/
theorem test_padrd :
    see (·.rsp) abc 0x13000002 0 = ok 0x63 ∧ see (·.rsp) abc 0x13000003 0 = ok 0x80 ∧
    see (·.rsp) abc 0x1300003f 0 = ok 0x18 := by decide

/-- 4.4 -/
theorem test_wload : see (fun s => (s.w, s.status)) abc 0x20000000 0 = some (abcBlock, 1) := by decide

/-- 8: nothing commits, not even the padding memo -/
theorem test_wload_out_of_range :
    see (fun s => (record s, s.blkCount)) State.reset 0x20000001 0 = some ((3, 0x20000001, 0, 8), 0) := by decide

/-- 4.4: `W[16]` -/
theorem test_wstep : see (·.w) abcLoaded 0x21000010 0 = some (abcBlock ++ [0x61626380]) := by decide

/-- R185: not the next entry -/
theorem test_wstep_contract : see record abcLoaded 0x21000011 0 = some (4, 0x21000011, 0, 9) := by decide

set_option maxRecDepth 100000 in
/-- 4.1: `W[17]`, `W[32]`, `W[63]` -/
theorem test_expand :
    see (fun s => (s.w[17]?, s.w[32]?, s.w[63]?, s.status)) abc 0x22000000 0 =
      some (some 0x000f0000, some 0x93f5997f, some 0x12b1edeb, 3) := by decide

/-- 5.4 -/
theorem test_cload : see (·.v) State.reset 0x30000000 0 = some HINIT := by decide

/-- 5.1: row 0 -/
theorem test_round :
    see (·.v) { abcLoaded with v := HINIT } 0x31000000 0 =
      some ⟨0x5d6aebcd, 0x6a09e667, 0xbb67ae85, 0x3c6ef372, 0xfa2a4622, 0x510e527f, 0x9b05688c, 0x1f83d9ab⟩ := by decide

/-- R203: `W[16]` is not valid -/
theorem test_round_contract : see record abcLoaded 0x31000010 0 = some (4, 0x31000010, 0, 9) := by decide

/-- 5.1: `H` + row 63 is the digest of "abc" -/
theorem test_cfold :
    see (·.h) { State.reset with
      v := ⟨0x506e3058, 0xd39a2165, 0x04d24d6c, 0xb85e2ce9, 0x5ef50f24, 0xfb121210, 0x948d25b6, 0x961f4894⟩ } 0x32000000 0 =
      some digestAbc := by decide

set_option maxRecDepth 100000 in
/-- 5.4: after EXPAND 0 of the empty message -/
theorem test_compress :
    see (fun s => (s.h, s.v.w7, s.status)) (State.reset.padWrites.expandWrites 0) 0x33000000 0 =
      some (digestEmpty, 0x1c71eb3c, 3) := by decide

/-- 2.5 -/
theorem test_wldi : see (fun s => (s.readX 3, s.rsp)) State.reset 0x40c00000 0xffffffff =
    some (0xffffffff, some ⟨true, 0xffffffff⟩) := by decide

/-- 8: 2^32 is no Word -/
theorem test_wldi_too_long : see record State.reset 0x40000001 0 = some (1, 0x40000001, 0, 8) := by decide

/-- 2.5: the first byte is the most significant -/
theorem test_wldb : see (fun s => s.readX 1) State.reset 0x41400004 0x61626364 = some 0x61626364 := by decide

/-- 8: three and five bytes -/
theorem test_wldb_wrong_length :
    see record State.reset 0x41400003 0x61626300 = some (1, 0x41400003, 0x61626300, 8) ∧
    see record State.reset 0x41400005 0 = some (1, 0x41400005, 0, 8) := by decide

/-- 2.5, E2: the sum wraps -/
theorem test_add :
    see (fun s => (s.readX 2, s.rsp)) (withX 0xffffffff 1 0) 0x42840000 0 = some (0x00000000, some ⟨true, 0x00000000⟩) := by decide

/-- 2.5 -/
theorem test_add_source_is_destination :
    see (fun s => (s.readX 0, s.rsp)) (withX 0x6a09e667 0 0) 0x42000000 0 = some (0xd413ccce, some ⟨true, 0xd413ccce⟩) := by decide

/-- 2.5 -/
theorem test_shr :
    see (fun s => (s.readX 1, s.rsp)) (withX 0x6a09e667 0 0) 0x43400003 0 = some (0x0d413ccc, some ⟨true, 0x0d413ccc⟩) := by decide

/-- 2.5: by the full width -/
theorem test_shr_full :
    see (fun s => (s.readX 1, s.rsp)) (withX 0x6a09e667 7 0) 0x43400020 0 = some (0, some ⟨true, 0⟩) := by decide

/-- 2.5 -/
theorem test_rotr :
    see (fun s => (s.readX 1, s.rsp)) (withX 0x6a09e667 0 0) 0x44400007 0 = some (0xced413cc, some ⟨true, 0xced413cc⟩) := by decide

/-- 2.5: by the full width -/
theorem test_rotr_full :
    see (fun s => (s.readX 1, s.rsp)) (withX 0x6a09e667 0 0) 0x44400020 0 = some (0x6a09e667, some ⟨true, 0x6a09e667⟩) := by decide

/-- 2.5 -/
theorem test_xor :
    see (fun s => (s.readX 2, s.rsp)) (withX 0x6a09e667 0xbb67ae85 0) 0x45840000 0 = some (0xd16e48e2, some ⟨true, 0xd16e48e2⟩) := by decide

/-- 2.5 -/
theorem test_ch :
    see (fun s => (s.readX 3, s.rsp)) (withX 0x510e527f 0x9b05688c 0x1f83d9ab) 0x46c60000 0 = some (0x1f85c98c, some ⟨true, 0x1f85c98c⟩) := by decide

/-- 2.5 -/
theorem test_maj :
    see (fun s => (s.readX 3, s.rsp)) (withX 0x6a09e667 0xbb67ae85 0x3c6ef372) 0x47c60000 0 = some (0x3a6fe667, some ⟨true, 0x3a6fe667⟩) := by decide

/-- 2.5 -/
theorem test_sigma0 :
    see (fun s => (s.readX 1, s.rsp)) (withX 0x6a09e667 0 0) 0x48400000 0 = some (0xba0cf582, some ⟨true, 0xba0cf582⟩) := by decide

/-- 2.5 -/
theorem test_sigma1 :
    see (fun s => (s.readX 1, s.rsp)) (withX 0x6a09e667 0 0) 0x49400000 0 = some (0xcfe5da3c, some ⟨true, 0xcfe5da3c⟩) := by decide

/-- 2.5 -/
theorem test_usigma0 :
    see (fun s => (s.readX 1, s.rsp)) (withX 0x6a09e667 0 0) 0x4a400000 0 = some (0xce20b47e, some ⟨true, 0xce20b47e⟩) := by decide

/-- 2.5 -/
theorem test_usigma1 :
    see (fun s => (s.readX 1, s.rsp)) (withX 0x510e527f 0 0) 0x4b400000 0 = some (0x3587272b, some ⟨true, 0x3587272b⟩) := by decide

/-- 8: the amount 33 -/
theorem test_shift_beyond_32 :
    see record State.reset 0x43400021 0 = some (6, 0x43400021, 0, 8) ∧
    see record State.reset 0x44400021 0 = some (6, 0x44400021, 0, 8) := by decide

/-- 2.5 -/
theorem test_weq :
    see (·.rsp) State.reset 0x4c040000 0 = ok 1 ∧ see (·.rsp) (withX 1 0 0) 0x4c040000 0 = ok 0 := by decide

/-! ### Illegal words, the halted core, reset, the host's word -/

/-- 7.2 -/
theorem test_illegal_word : see record State.reset 0x42850000 7 = some (5, 0x42850000, 7, 8) := by decide

/-- R258: NOP and a readable register are answered, HASH and an illegal word are not. -/
theorem test_halted :
    see (·.rsp) halted 0 0 = ok 0 ∧ see (·.rsp) halted 0x01000001 0 = ok 5 ∧
    see (·.rsp) halted 0x01000040 0 = some (some ⟨false, 0⟩) ∧ see (·.rsp) halted 0x04000000 0 = some (some ⟨false, 0⟩) ∧
    see record halted 0xff000000 1 = some (5, 0x05000000, 0, 8) := by decide

/-- R290: reset leaves the halted state. -/
theorem test_reset :
    (after (step { halted with pending := [.reset] })).map (fun s => (s.fault, s.err, s.h, s.rsp)) =
      some (false, 0, HINIT, none) := by decide

/-- The host's word is the command the very next step runs. -/
theorem test_fetch_word :
    (after (step (State.reset.withFetchWord 32 0x01000010))).map (·.rsp) = ok 0x6a09e667 := by decide

set_option maxRecDepth 100000 in
/-- E4: `sha256` of the empty message -/
theorem test_sha256_empty : sha256 [] = digestEmpty := by decide

/-- E8 -/
theorem test_hex : hexW 0x0000abcd = ['0', 'x', '0', '0', '0', '0', 'a', 'b', 'c', 'd'] := by decide

/-! ### Witnesses -/

/-- A running legal state that holds a message. -/
theorem abc_legal : abc.Legal where
  cap := by decide
  memory := by decide
  addresses := by decide
  length := by decide
  padSet := by intro h; cases h
  padClear := fun _ => rfl
  fill := .inl rfl
  emptyIdx := fun _ => rfl
  filledIdx := fun h => absurd rfl h
  running := fun _ => ⟨rfl, rfl, rfl⟩
  halted := by intro h; cases h
  ready := rfl
  response := by intro r h; cases h

/-- A running legal state whose memos are set. -/
theorem abcLoaded_legal : abcLoaded.Legal where
  cap := by decide
  memory := by decide
  addresses := by decide
  length := by decide
  padSet := fun _ => by decide
  padClear := by intro h; cases h
  fill := .inr (by decide)
  emptyIdx := fun _ => rfl
  filledIdx := fun _ => by decide
  running := fun _ => ⟨rfl, rfl, rfl⟩
  halted := by intro h; cases h
  ready := rfl
  response := by intro r h; cases h

set_option maxRecDepth 100000 in
theorem abcLoaded_memos : abcLoaded.MemosTrue where
  schedule := fun _ => by decide
  digest := by intro h; cases h

/-- `abcLoaded` with HASH on offer: legal, memos true. -/
def hashing : State := offer abcLoaded 0x04000000 0

theorem hashing_legal : hashing.Legal :=
  ⟨abcLoaded_legal.cap, abcLoaded_legal.memory, abcLoaded_legal.addresses, abcLoaded_legal.length, abcLoaded_legal.padSet,
    abcLoaded_legal.padClear, abcLoaded_legal.fill, abcLoaded_legal.emptyIdx, abcLoaded_legal.filledIdx,
    abcLoaded_legal.running, abcLoaded_legal.halted, abcLoaded_legal.ready, abcLoaded_legal.response⟩

theorem hashing_memos : hashing.MemosTrue := ⟨abcLoaded_memos.schedule, abcLoaded_memos.digest⟩

theorem witness_DecodeOfEncodeIsIdentity :
    (Instr.expand 0xffffff 0).wellFormed = true ∧ (Instr.rdreg 255 0).wellFormed = true ∧
    (Instr.ch 3 3 3 3 0).wellFormed = true ∧ (Instr.shr 3 0 63 0).wellFormed = true := by decide

theorem witness_EncodeOfDecodeIsIdentity : decode ⟨0x44400007, 9⟩ = .ok (.rotr 1 0 7 9) := rfl

theorem witness_DecodeFollowsOpcodeTable :
    ⟨"WEQ", 0xFFC3FFFF, 0x4C000000⟩ ∈ opcodeTable ∧ OpcodeRow.covers ⟨"WEQ", 0xFFC3FFFF, 0x4C000000⟩ 0x4C3C0000 := by decide

theorem witness_IllegalWordsFault :
    (offer State.reset 0x4d000000 1).pending = .command ⟨0x4d000000, 1⟩ :: [] ∧
    (offer State.reset 0x4d000000 1).seq = Seq.ready ∧ (offer State.reset 0x4d000000 1).fault = false ∧
    ∀ r ∈ opcodeTable, ¬ r.covers 0x4d000000 := by decide

theorem witness_StepRunsDecodedCommand :
    hashing.pending = .command ⟨0x04000000, 0⟩ :: [] ∧ hashing.seq = Seq.ready ∧
    decode ⟨0x04000000, 0⟩ = .ok (.hash 0) := ⟨rfl, rfl, rfl⟩

theorem witness_StepTakesReset : State.pending { halted with pending := [.reset] } = .reset :: [] := rfl

theorem witness_StepAcceptsNothingWhenIdleOrBusy :
    abc.pending = [] ∧ State.pending { hashing with seq := ⟨.round, 0, 63⟩ } = .command ⟨0x04000000, 0⟩ :: [] ∧
    State.seq { hashing with seq := ⟨.round, 0, 63⟩ } = ⟨.round, 0, 63⟩ := by decide

theorem witness_HaltedCoreAnswersOnlyReads : halted.fault = true := rfl

/-- What decides between those branches, at the ends of the ranges. -/
theorem witness_HaltedCoreAnswersOnlyReads_branches :
    mapped 0xc7 ∧ ¬ halted.unreadable 0xc7 ∧ halted.unreadable 0x40 ∧ ¬ mapped 0x09 ∧ ¬ mapped 0xc8 := by decide

theorem witness_HaltedUntilReset :
    (offer halted 0x04000000 0).fault = true ∧ (∀ rest, (offer halted 0x04000000 0).pending ≠ .reset :: rest) ∧
    step (offer halted 0x04000000 0) = .next { halted with rsp := some ⟨false, 0⟩ } :=
  ⟨rfl, (by intro rest h; cases h), rfl⟩

theorem witness_StepKeepsLegal : hashing.Legal ∧ ∃ t, step hashing = .next t := ⟨hashing_legal, _, rfl⟩

theorem witness_StepKeepsMemosTrue : hashing.Legal ∧ hashing.MemosTrue ∧ ∃ t, step hashing = .next t :=
  ⟨hashing_legal, hashing_memos, _, rfl⟩

/-- One command for each fault that a decoded command raises. -/
theorem witness_FaultEntryIsPrecise :
    abcLoaded.fault = false ∧ abcLoaded.faultOf (.wldi 0 1 0) = some .invalidLength ∧
    State.faultOf { abc with msgBitlen := 12 } (.expand 5 0) = some .paddingAlignment ∧
    abcLoaded.faultOf (.wload 1 0) = some .indexOutOfRange ∧ abcLoaded.faultOf (.round 16 0) = some .scheduleContract ∧
    abcLoaded.faultOf (.msgwr 4096 0) = some .illegalOperand := by decide

theorem witness_FaultEntryIsPrecise_illegal :
    abcLoaded.fault = false ∧ decode ⟨0x4d000000, 7⟩ = .error .unassignedOpcode ∧
    decode ⟨0x03000001, 7⟩ = .error .mustBeZero := ⟨rfl, rfl, rfl⟩

theorem witness_CommandsCompleteUnlessTheyFault :
    abcLoaded.fault = false ∧ abcLoaded.faultOf (.wstep 16 0) = none ∧ abcLoaded.faultOf (.hash 0) = none := by decide

theorem witness_FaultMatrixHolds :
    abc.fault = false ∧
    exec (.weq 0 1 0) abc = .next { abc with rsp := some ⟨true, 1⟩ } ∧
    exec (.msgrd 4096 3) abc = .next { abc with
      fault := true, err := 6, errCmd := 0x11001000, errData := 3, rsp := some ⟨false, 0⟩ } ∧
    2 ∈ canRaise (.padrd 0 0) := ⟨rfl, rfl, rfl, by decide⟩

theorem witness_WriteMatrixHolds :
    exec (.cload 0) abc = .next { abc with v := HINIT, rsp := some ⟨true, 0⟩ } ∧
    exec (.cload 0) halted = .next { halted with rsp := some ⟨false, 0⟩ } := ⟨rfl, rfl⟩

theorem witness_AddCompletes : abc.fault = false := rfl

theorem witness_XorCompletes : abc.fault = false := rfl

theorem witness_ChMajComplete : abc.fault = false := rfl

theorem witness_SigmasComplete : abc.fault = false := rfl

theorem witness_LoadsComplete : abc.fault = false := rfl

theorem witness_CloadCfoldComplete : abc.fault = false := rfl

theorem witness_InitSetsHashState : abc.fault = false := rfl

theorem witness_ShiftsComplete : abc.fault = false ∧ 0 ≤ 32 ∧ 32 ≤ 32 := by decide

theorem witness_ShiftsBeyond32Fault : abc.fault = false ∧ (33 ≤ 33 ∧ 33 ≤ 63) ∧ (33 ≤ 63 ∧ 63 ≤ 63) := by decide

theorem witness_LoadsOfWrongLengthFault :
    abc.fault = false ∧ (0 < 1 ∧ 1 < 256) ∧ (0 < 255 ∧ 255 < 256) ∧ (3 ≠ 4 ∧ 3 < 8) ∧ (7 ≠ 4 ∧ 7 < 8) := by decide

theorem witness_WeqAnswersEquality :
    abc.fault = false ∧ (abc.readX 0).toNat = (abc.readX 1).toNat ∧
    (withX 1 0 0).fault = false ∧ ((withX 1 0 0).readX 0).toNat ≠ ((withX 1 0 0).readX 1).toNat := by decide

theorem witness_WauDependsOnlyOnX :
    isWauCommand (.shr 0 1 33 0) = true ∧ abc.fault = false ∧ State.reset.fault = false ∧ abc.x = State.reset.x ∧
    abc ≠ State.reset := by decide

theorem witness_MsgwrStoresOneByte :
    abc.fault = false ∧ 0 < abc.msgCap ∧ 4095 < abc.msgCap ∧ Memory.wf abc.msg := by decide

theorem witness_MsgrdAnswersByte : abc.fault = false ∧ 0 < abc.msgCap ∧ 4095 < abc.msgCap := by decide

theorem witness_MsgrdReturnsLatestMsgwr : abc.fault = false ∧ 2 < abc.msgCap ∧ 4095 < abc.msgCap ∧ 2 ≠ 4095 := by decide

theorem witness_PadDerivesBlockCount :
    (abcLoaded.fault = false ∧ abcLoaded.padValid = true) ∧
    (abc.fault = false ∧ abc.padValid = false ∧ abc.msgBitlen.toNat % 8 = 0) ∧
    (State.fault { abc with msgBitlen := 20 } = false ∧ State.padValid { abc with msgBitlen := 20 } = false ∧
      (State.msgBitlen { abc with msgBitlen := 20 }).toNat % 8 ≠ 0) := by decide

theorem witness_PadrdAnswersPaddedByte :
    abc.Legal ∧ abc.fault = false ∧ abc.bitLen % 8 = 0 ∧ 0 < 64 * abc.blocks ∧ 63 < 64 * abc.blocks :=
  ⟨abc_legal, by decide⟩

/-- With a byte between the 0x80 and the length, the last of them too, and a multiple of 64 that has room. -/
theorem witness_PaddedMessageShape :
    8 * [(0x61 : Byte), 0x62, 0x63].length < 2 ^ 64 ∧ (128 % 64 = 0 ∧ [(0x61 : Byte), 0x62, 0x63].length + 9 ≤ 128) ∧
    ([(0x61 : Byte), 0x62, 0x63].length < 4 ∧ 55 < (paddedMessage [0x61, 0x62, 0x63]).length - 8) := by decide

theorem witness_PaddedViewIsPaddedMessage : abc.bitLen % 8 = 0 ∧ 63 < abc.paddedLen := by decide

theorem witness_WloadLoadsBlock : abc.Legal ∧ abc.fault = false ∧ abc.bitLen % 8 = 0 ∧ 0 < abc.blocks :=
  ⟨abc_legal, by decide⟩

/-- At both ends of the range of t. -/
theorem witness_WstepExtendsSchedule :
    (abcLoaded.fault = false ∧ 16 ≤ 16 ∧ 16 ≤ 63 ∧ 16 = abcLoaded.schedFill) ∧
    (State.fault { abcLoaded with w := List.replicate 63 0 } = false ∧ 16 ≤ 63 ∧ 63 ≤ 63 ∧
      63 = State.schedFill { abcLoaded with w := List.replicate 63 0 }) := by decide

theorem witness_ExpandBuildsSchedule : abc.Legal ∧ abc.fault = false ∧ abc.bitLen % 8 = 0 ∧ 0 < abc.blocks :=
  ⟨abc_legal, by decide⟩

theorem witness_RoundUpdatesWorkingRegisters :
    abcLoaded.fault = false ∧ 0 < abcLoaded.schedFill ∧ 15 < abcLoaded.schedFill := by decide

theorem witness_CompressFoldsBlock :
    State.fault { abcLoaded with w := List.replicate 64 0 } = false ∧
    State.schedFill { abcLoaded with w := List.replicate 64 0 } = 64 := by decide

/-- The first and the last address of each range; of the schedule, the last entry that is valid. -/
theorem witness_RdregAnswersRegister :
    ∀ r8 ∈ [0x00, 0x01, 0x02, 0x03, 0x04, 0x05, 0x06, 0x07, 0x08, 0x10, 0x17, 0x18, 0x1f, 0x20, 0x23, 0x40, 0x4f, 0x80, 0xbf,
      0xc0, 0xc7], mapped r8 ∧ ¬ abcLoaded.unreadable r8 := by decide

theorem witness_WrregSetsLength :
    abc.fault = false ∧ (0 : Word).toNat ≤ 8 * abc.msgCap ∧ (32768 : Word).toNat ≤ 8 * abc.msgCap := by decide

theorem witness_HashComputesSha256 : abc.Legal ∧ abc.fault = false ∧ abc.bitLen % 8 = 0 := ⟨abc_legal, by decide⟩

theorem witness_HashEqualsManualSequence : abcLoaded.Legal ∧ abcLoaded.fault = false ∧ abcLoaded.bitLen % 8 = 0 :=
  ⟨abcLoaded_legal, by decide⟩

/-- Two states that differ in the memos and the schedule buffer. -/
theorem witness_HashDependsOnlyOnMessage :
    abc.Legal ∧ abcLoaded.Legal ∧ abc.fault = false ∧ abcLoaded.fault = false ∧ abc.bitLen % 8 = 0 ∧
    abc.msgBitlen = abcLoaded.msgBitlen ∧ (∀ a, a < abc.byteLen → abc.msgByte a = abcLoaded.msgByte a) ∧ abc ≠ abcLoaded :=
  ⟨abc_legal, abcLoaded_legal, rfl, rfl, rfl, rfl, fun _ _ => rfl, by decide⟩

/-- `abcLoaded` with a schedule buffer that is full. -/
def abcFull : State := { abcLoaded with w := List.replicate 64 0 }

theorem abcFull_legal : abcFull.Legal :=
  { abcLoaded_legal with
    fill := .inr (by decide)
    emptyIdx := fun _ => rfl
    filledIdx := fun _ => by decide }

/-- Each composite command; COMPRESS where the schedule is complete. -/
theorem witness_SequencerRefinesAtomicCommand :
    abc.Legal ∧ abc.fault = false ∧ abc.faultOf ((Composite.expand 0).instr 0) = none ∧
    abc.faultOf (Composite.hash.instr 0) = none ∧
    abcFull.Legal ∧ abcFull.fault = false ∧ abcFull.faultOf (Composite.compress.instr 0) = none :=
  ⟨abc_legal, by decide, by decide, by decide, abcFull_legal, by decide⟩

theorem witness_PinsShowDigest : abc.digestValid = false ∧ State.digestValid { abc with digestValid := true } = true := by
  decide

/-- Up to the last byte of the memory. -/
theorem witness_MsgloadStoresBytes : abc.fault = false ∧ 4093 + [(0x61 : Byte), 0x62, 0x63].length ≤ abc.msgCap := by decide

theorem witness_HostHashesAnyMessage :
    abcLoaded.Legal ∧ abcLoaded.fault = false ∧ [(0x61 : Byte), 0x62, 0x63].length ≤ abcLoaded.msgCap :=
  ⟨abcLoaded_legal, by decide⟩

end Sys2Proof.Tests
end

/-! PROOF. Which command writes which state (R37): the columns each shared update writes, how they add up over the composite
updates, the row of each command's effect, and what the two skeletons make of it. -/

namespace Sys2Proof.Machine

/-! ### The columns an update writes -/

theorem Column.same_refl (c : Column) (s : State) : c.same s s := by
  cases c <;> simp [Column.same]

theorem Column.same_trans {c : Column} {s t u : State} (hst : c.same s t) (htu : c.same t u) : c.same s u := by
  cases c with
  | x | msg => exact fun a => (htu a).trans (hst a)
  | pad | sched =>
    obtain ⟨hst₁, hst₂⟩ := hst
    obtain ⟨htu₁, htu₂⟩ := htu
    exact ⟨htu₁.trans hst₁, htu₂.trans hst₂⟩
  | h | v | msgBitlen | digestValid => exact Eq.trans htu hst

/-- The fault entry touches no column of the matrix (R254). -/
theorem Column.same_raise (c : Column) (s : State) (f : FaultKind) (k : Command) : c.same s (s.raise f k) := by
  cases c <;> simp [Column.same]

theorem Column.forall_iff {P : Column → Prop} :
    (∀ c, P c) ↔ P .x ∧ P .h ∧ P .v ∧ P .msg ∧ P .msgBitlen ∧ P .pad ∧ P .sched ∧ P .digestValid := by
  constructor
  · intro hP
    exact ⟨hP .x, hP .h, hP .v, hP .msg, hP .msgBitlen, hP .pad, hP .sched, hP .digestValid⟩
  · rintro ⟨hx, hh, hv, hmsg, hlen, hpad, hsched, hdigest⟩ c
    cases c <;> assumption

/-- From s to u nothing changed but the listed columns and the response. An update that leaves the fields outside the matrix
alone as it stands has only its blank columns to show. -/
structure State.WritesOnly (cs : List Column) (s u : State) : Prop where
  blank : ∀ c : Column, c ∉ cs → c.same s u
  fault : u.fault = s.fault := by rfl
  err : u.err = s.err := by rfl
  errCmd : u.errCmd = s.errCmd := by rfl
  errData : u.errData = s.errData := by rfl
  seq : u.seq = s.seq := by rfl
  msgCap : u.msgCap = s.msgCap := by rfl
  msgEpoch : u.msgEpoch = s.msgEpoch := by rfl
  pending : u.pending = s.pending := by rfl

namespace State.WritesOnly

variable {cs ds : List Column} {s t u : State}

theorem refl (cs : List Column) (s : State) : s.WritesOnly cs s where
  blank c _ := c.same_refl s

theorem mono (h : s.WritesOnly cs t) (hs : cs ⊆ ds) : s.WritesOnly ds t :=
  { h with blank := fun c hc => h.blank c (fun hm => hc (hs hm)) }

theorem trans (hst : s.WritesOnly cs t) (htu : t.WritesOnly ds u) : s.WritesOnly (cs ++ ds) u where
  blank c hc := by
    obtain ⟨hcs, hds⟩ := not_or.1 (mt List.mem_append.2 hc)
    exact Column.same_trans (hst.blank c hcs) (htu.blank c hds)
  fault := htu.fault.trans hst.fault
  err := htu.err.trans hst.err
  errCmd := htu.errCmd.trans hst.errCmd
  errData := htu.errData.trans hst.errData
  seq := htu.seq.trans hst.seq
  msgCap := htu.msgCap.trans hst.msgCap
  msgEpoch := htu.msgEpoch.trans hst.msgEpoch
  pending := htu.pending.trans hst.pending

/-- A loop writes what one turn of it writes. -/
theorem foldl {f : State → Nat → State} (hf : ∀ s i, State.WritesOnly cs s (f s i)) (is : List Nat) (s : State) :
    s.WritesOnly cs (is.foldl f s) := by
  induction is generalizing s with
  | nil => exact refl cs s
  | cons i is ih => exact ((hf s i).trans (ih (f s i))).mono (by simp)

end State.WritesOnly

/-! ### The columns of each shared update -/

section Updates

variable (s : State)

theorem State.respond_writesOnly (ok : Bool) (r : Word) : s.WritesOnly [] (s.respond ok r) where
  blank := by simp [Column.forall_iff, Column.same]

theorem State.writeX_writesOnly (rd : XReg) (r : Word) : s.WritesOnly [.x] (s.writeX rd r) where
  blank := by simp [Column.forall_iff, Column.same]

theorem State.writeMsg_writesOnly (a : Nat) (b : Byte) : s.WritesOnly [.msg] (s.writeMsg a b) where
  blank := by simp [Column.forall_iff, Column.same]

theorem State.clearMemos_writesOnly : s.WritesOnly [.pad, .sched, .digestValid] s.clearMemos where
  blank := by simp [Column.forall_iff, Column.same]

theorem State.setBitlen_writesOnly (d : Word) :
    s.WritesOnly [.msgBitlen, .pad, .sched, .digestValid] (s.setBitlen d) where
  blank := by simp [Column.forall_iff, Column.same]

theorem State.padWrites_writesOnly : s.WritesOnly [.pad] s.padWrites where
  blank := by simp [Column.forall_iff, Column.same]

theorem State.wloadWrites_writesOnly (idx : Nat) : s.WritesOnly [.sched] (s.wloadWrites idx) where
  blank := by simp [Column.forall_iff, Column.same]

theorem State.wstepWrites_writesOnly (t : Nat) : s.WritesOnly [.sched] (s.wstepWrites t) where
  blank := by simp [Column.forall_iff, Column.same]

theorem State.cloadWrites_writesOnly : s.WritesOnly [.v] s.cloadWrites where
  blank := by simp [Column.forall_iff, Column.same]

theorem State.roundWrites_writesOnly (i : Nat) : s.WritesOnly [.v] (s.roundWrites i) where
  blank := by simp [Column.forall_iff, Column.same]

theorem State.cfoldWrites_writesOnly : s.WritesOnly [.h, .digestValid] s.cfoldWrites where
  blank := by simp [Column.forall_iff, Column.same]

theorem State.initWrites_writesOnly : s.WritesOnly [.h, .digestValid] s.initWrites where
  blank := by simp [Column.forall_iff, Column.same]

theorem State.setDigestValid_writesOnly (b : Bool) : s.WritesOnly [.digestValid] { s with digestValid := b } where
  blank := by simp [Column.forall_iff, Column.same, State.readX, State.msgByte]

variable {s} in
theorem State.ensurePad_writesOnly {t : State} (h : s.ensurePad = .ok t) : s.WritesOnly [.pad] t := by
  rcases s.ensurePad_cases with ⟨_, he⟩ | ⟨_, _, he⟩ | ⟨_, _, he⟩
  · cases he.symm.trans h
    exact .refl _ s
  · cases he.symm.trans h
  · cases he.symm.trans h
    exact s.padWrites_writesOnly

theorem State.expandWrites_writesOnly (idx : Nat) : s.WritesOnly [.sched] (s.expandWrites idx) :=
  ((s.wloadWrites_writesOnly idx).trans (.foldl State.wstepWrites_writesOnly _ _)).mono (by decide)

theorem State.compressWrites_writesOnly : s.WritesOnly [.h, .v, .digestValid] s.compressWrites :=
  ((s.cloadWrites_writesOnly.trans (.foldl State.roundWrites_writesOnly _ _)).trans
    (State.cfoldWrites_writesOnly _)).mono (by decide)

theorem State.hashBlock_writesOnly (idx : Nat) : s.WritesOnly [.h, .v, .sched, .digestValid] (s.hashBlock idx) :=
  ((s.expandWrites_writesOnly idx).trans (State.compressWrites_writesOnly _)).mono (by decide)

theorem State.hashBlocks_writesOnly : s.WritesOnly [.h, .v, .sched, .digestValid] s.hashBlocks :=
  ((State.WritesOnly.foldl State.hashBlock_writesOnly _ s).trans
    (State.setDigestValid_writesOnly _ true)).mono (by decide)

end Updates

/-! ### The columns of each command's effect -/

/-- An effect that completes writes only the listed columns. -/
def EffectWritesOnly (cs : List Column) (s : State) (e : Effect) : Prop :=
  ∀ u r, e = .ok (u, r) → s.WritesOnly cs u

namespace EffectWritesOnly

variable {cs ds : List Column} {s t u : State} {e : Effect}

theorem ok (h : s.WritesOnly cs u) (r : Word) : EffectWritesOnly cs s (.ok (u, r)) := by
  rintro _ _ ⟨⟩
  exact h

theorem error (f : FaultKind) : EffectWritesOnly cs s (.error f) := by
  rintro _ _ ⟨⟩

theorem mono (hs : cs ⊆ ds) (he : EffectWritesOnly cs s e) : EffectWritesOnly ds s e :=
  fun u r hu => (he u r hu).mono hs

/-- The effect of a word-unit command that completes (R151). -/
theorem setResult {rd : XReg} {r : Word} : EffectWritesOnly [.x] s (.ok (s.setResult rd r)) :=
  ok (s.writeX_writesOnly rd r) r

/-- A check in front of an effect. -/
theorem guard {c : Prop} [Decidable c] (f : FaultKind) (h : EffectWritesOnly cs s e) :
    EffectWritesOnly cs s (if c then .error f else e) := by
  split
  · exact error f
  · exact h

/-- An effect on a state that updates have already written. -/
theorem after (ht : s.WritesOnly cs t) (he : EffectWritesOnly ds t e) : EffectWritesOnly (cs ++ ds) s e :=
  fun u r hu => ht.trans (he u r hu)

/-- An effect that the padding step goes before (R169). -/
theorem afterPad {k : State → Effect} (hk : ∀ t, EffectWritesOnly cs t (k t)) :
    EffectWritesOnly (.pad :: cs) s (match s.ensurePad with | .error f => .error f | .ok t => k t) := by
  cases hp : s.ensurePad with
  | error f => exact error f
  | ok t => exact after (State.ensurePad_writesOnly hp) (hk t)

end EffectWritesOnly

/-- Every command but the two read-only ones runs an effect that writes only the columns of its row (R37). -/
theorem exec_runs_effect_of_row (i : Instr) (s : State) :
    (∃ e, exec i s = runReadOnly i s e) ∨
    (∃ e, exec i s = runCommand i s e ∧ EffectWritesOnly (mayWrite i) s e) := by
  cases i with
  | nop d => exact .inl ⟨_, exec_nop ..⟩
  | rdreg r8 d => exact .inl ⟨_, exec_rdreg ..⟩
  | wrreg r8 d => exact .inr ⟨_, exec_wrreg .., .guard _ (.guard _ (.ok (s.setBitlen_writesOnly d) 0))⟩
  | init d => exact .inr ⟨_, exec_init .., .ok s.initWrites_writesOnly 0⟩
  | hash d =>
    exact .inr ⟨_, exec_hash .., .mono (by simp [mayWrite]) (.after s.initWrites_writesOnly
      (.afterPad fun t => .ok t.hashBlocks_writesOnly 0))⟩
  | msgwr a d =>
    exact .inr ⟨_, exec_msgwr .., .guard _ (.ok ((s.writeMsg_writesOnly a _).trans (State.clearMemos_writesOnly _)) 0)⟩
  | msgrd a d => exact .inr ⟨_, exec_msgrd .., .guard _ (.ok (.refl _ s) _)⟩
  | pad d => exact .inr ⟨_, exec_pad .., .afterPad fun t => .ok (.refl [] t) 0⟩
  | padrd a d => exact .inr ⟨_, exec_padrd .., .afterPad fun t => .guard _ (.ok (.refl [] t) _)⟩
  | wload a d => exact .inr ⟨_, exec_wload .., .afterPad fun t => .guard _ (.ok (t.wloadWrites_writesOnly a) 0)⟩
  | wstep n d => exact .inr ⟨_, exec_wstep .., .guard _ (.guard _ (.ok (s.wstepWrites_writesOnly n) 0))⟩
  | expand a d => exact .inr ⟨_, exec_expand .., .afterPad fun t => .guard _ (.ok (t.expandWrites_writesOnly a) 0)⟩
  | cload d => exact .inr ⟨_, exec_cload .., .ok s.cloadWrites_writesOnly 0⟩
  | round n d => exact .inr ⟨_, exec_round .., .guard _ (.ok (s.roundWrites_writesOnly n) 0)⟩
  | cfold d => exact .inr ⟨_, exec_cfold .., .ok s.cfoldWrites_writesOnly 0⟩
  | compress d => exact .inr ⟨_, exec_compress .., .guard _ (.ok s.compressWrites_writesOnly 0)⟩
  | wldi rd hi8 d =>
    refine .inr ⟨_, exec_wldi .., ?_⟩
    split
    · exact .error _
    · exact .setResult
  | wldb rd nb3 d =>
    refine .inr ⟨_, exec_wldb .., ?_⟩
    split
    · exact .error _
    · exact .setResult
  | add rd ra rb d => exact .inr ⟨_, exec_add .., .setResult⟩
  | shr rd ra n d =>
    refine .inr ⟨_, exec_shr .., ?_⟩
    split
    · exact .setResult
    · exact .error _
  | rotr rd ra n d =>
    refine .inr ⟨_, exec_rotr .., ?_⟩
    split
    · exact .setResult
    · exact .error _
  | xor rd ra rb d => exact .inr ⟨_, exec_xor .., .setResult⟩
  | ch rd ra rb rc d => exact .inr ⟨_, exec_ch .., .setResult⟩
  | maj rd ra rb rc d => exact .inr ⟨_, exec_maj .., .setResult⟩
  | sigma0 rd ra d => exact .inr ⟨_, exec_sigma0 .., .setResult⟩
  | sigma1 rd ra d => exact .inr ⟨_, exec_sigma1 .., .setResult⟩
  | usigma0 rd ra d => exact .inr ⟨_, exec_usigma0 .., .setResult⟩
  | usigma1 rd ra d => exact .inr ⟨_, exec_usigma1 .., .setResult⟩
  | weq ra rb d => exact .inr ⟨_, exec_weq .., .ok (.refl _ s) _⟩

/-! ### What the skeletons make of an effect -/

/-- What R37 says of one command from s to t whose row is the listed columns. -/
def WriteFrame (cs : List Column) (s t : State) : Prop :=
  (∀ c : Column, c ∉ cs → c.same s t) ∧
  (t.fault = true → ∀ c : Column, c.same s t) ∧
  (t.fault = false → t.err = s.err ∧ t.errCmd = s.errCmd ∧ t.errData = s.errData) ∧
  t.seq = s.seq ∧ t.msgCap = s.msgCap ∧ t.msgEpoch = s.msgEpoch ∧ t.pending = s.pending

namespace WriteFrame

variable {cs : List Column} {s u : State}

/-- A running core that completes a command. -/
theorem completed (hf : s.fault = false) (h : s.WritesOnly cs u) (r : Word) : WriteFrame cs s (u.respond true r) :=
  have ht : s.WritesOnly cs (u.respond true r) := (h.trans (u.respond_writesOnly true r)).mono (by simp)
  ⟨ht.blank, fun hr => absurd (ht.fault.symm.trans hr) (by simp [hf]), fun _ => ⟨ht.err, ht.errCmd, ht.errData⟩,
    ht.seq, ht.msgCap, ht.msgEpoch, ht.pending⟩

/-- A command that is only answered, by a running core or a halted one. -/
theorem answered (ok : Bool) (r : Word) : WriteFrame cs s (s.respond ok r) :=
  have ht : s.WritesOnly [] (s.respond ok r) := s.respond_writesOnly ok r
  have same (c : Column) : c.same s (s.respond ok r) := ht.blank c List.not_mem_nil
  ⟨fun c _ => same c, fun _ => same, fun _ => ⟨ht.err, ht.errCmd, ht.errData⟩,
    ht.seq, ht.msgCap, ht.msgEpoch, ht.pending⟩

/-- A command that faults (R254). -/
theorem raised (f : FaultKind) (c : Command) : WriteFrame cs s (s.raise f c) :=
  ⟨fun k _ => k.same_raise s f c, fun _ k => k.same_raise s f c, by simp, rfl, rfl, rfl, rfl⟩

theorem of_runCommand {i : Instr} {t : State} {e : Effect} (he : EffectWritesOnly cs s e)
    (h : runCommand i s e = .next t) : WriteFrame cs s t := by
  rcases runCommand_cases h with ⟨_, rfl⟩ | ⟨hf, u, r, hu, rfl⟩ | ⟨_, f, _, rfl⟩
  · exact answered false 0
  · exact completed hf (he u r hu) r
  · exact raised f _

theorem of_runReadOnly {i : Instr} {t : State} {e : Except FaultKind Word} (h : runReadOnly i s e = .next t) :
    WriteFrame cs s t := by
  rcases runReadOnly_cases h with ⟨r, _, rfl⟩ | ⟨_, _, _, rfl⟩ | ⟨_, f, _, rfl⟩
  · exact answered true r
  · exact answered false 0
  · exact raised f _

end WriteFrame

theorem exec_writeFrame {i : Instr} {s t : State} (h : exec i s = .next t) : WriteFrame (mayWrite i) s t := by
  obtain ⟨e, he⟩ | ⟨e, he, hw⟩ := exec_runs_effect_of_row i s
  · exact .of_runReadOnly (he ▸ h)
  · exact .of_runCommand hw (he ▸ h)

/-- Settles O19: each command runs an effect that writes only its row, and the skeletons keep or discard that effect whole. -/
theorem writeMatrixHolds : Obligations.WriteMatrixHolds := by
  unfold Obligations.WriteMatrixHolds
  intro i s t h
  exact exec_writeFrame h

end Sys2Proof.Machine

/-! PROOF. The decoder against the mask and match table (R95, R96): a row covers a word when the opcode is the row's and the
must-be-zero bits are zero, and on the words of its opcode each row says whether, and as what, the decoder answers. -/

namespace Sys2Proof.Machine

/-! ### Fields of a word and masks -/

/-- The word that has ones exactly in bits hi down to lo. -/
def rangeMask (hi lo : Nat) : Word := BitVec.ofNat 32 ((2 ^ (hi - lo + 1) - 1) * 2 ^ lo)

theorem toNat_and_rangeMask (v : Word) (hi lo : Nat) : (v &&& rangeMask hi lo).toNat = bits v hi lo * 2 ^ lo := by
  refine Nat.eq_of_testBit_eq fun k => ?_
  have hv : 32 ≤ k → v.toNat.testBit k = false := fun hk =>
    Nat.testBit_lt_two_pow (v.isLt.trans_le (Nat.pow_le_pow_right two_pos hk))
  simp only [rangeMask, bits, BitVec.toNat_and, BitVec.toNat_ofNat, Nat.testBit_and, Nat.testBit_mod_two_pow,
    Nat.testBit_mul_two_pow, Nat.testBit_two_pow_sub_one, Nat.testBit_div_two_pow]
  by_cases hlo : lo ≤ k
  · by_cases hk : k < 32
    · simp [hk, hlo, Bool.and_comm]
    · simp [hk, hlo, hv (Nat.le_of_not_lt hk)]
  · simp [hlo]

/-- Two words agree under a mask of adjacent bits when they agree in the field of those bits. -/
theorem and_rangeMask_eq_iff (u v : Word) (hi lo : Nat) :
    u &&& rangeMask hi lo = v &&& rangeMask hi lo ↔ bits u hi lo = bits v hi lo := by
  rw [← BitVec.toNat_inj, toNat_and_rangeMask, toNat_and_rangeMask, Nat.mul_left_inj (by positivity)]

theorem and_rangeMask_eq_zero_iff (v : Word) (hi lo : Nat) : v &&& rangeMask hi lo = 0 ↔ bits v hi lo = 0 := by
  simpa [bits] using and_rangeMask_eq_iff v 0 hi lo

/-! ### What a row covers -/

/-- The opcode of a row: bits 31:24 of its match. -/
def OpcodeRow.opcode (r : OpcodeRow) : Nat := bits r.pattern 31 24

/-- The mask of a row's must-be-zero bits: what its mask has below the opcode. -/
def OpcodeRow.mustBeZero (r : OpcodeRow) : Word := r.mask &&& 0x00FFFFFF

theorem opcodeTable_opcode_injective :
    ∀ r ∈ opcodeTable, ∀ q ∈ opcodeTable, r.opcode = q.opcode → r = q := by decide

theorem opcodeTable_mnemonic_injective :
    ∀ r ∈ opcodeTable, ∀ q ∈ opcodeTable, r.mnemonic = q.mnemonic → r = q := by decide

/-- Every mask is the opcode's bits with the must-be-zero bits, and every match is zero below the opcode. -/
theorem opcodeTable_form : ∀ r ∈ opcodeTable,
    r.mask = rangeMask 31 24 ||| r.mustBeZero ∧ r.mask &&& rangeMask 31 24 = rangeMask 31 24 ∧
    r.pattern &&& rangeMask 31 24 = r.pattern ∧ r.pattern &&& 0x00FFFFFF = 0 := by decide

theorem OpcodeRow.covers_iff {r : OpcodeRow} (hr : r ∈ opcodeTable) (v : Word) :
    r.covers v ↔ bits v 31 24 = r.opcode ∧ v &&& r.mustBeZero = 0 := by
  obtain ⟨hmask, hmaskOp, hpatternOp, hpatternLow⟩ := opcodeTable_form r hr
  rw [OpcodeRow.opcode, ← and_rangeMask_eq_iff]
  constructor
  · intro (hcov : v &&& r.mask = r.pattern)
    constructor
    · rw [← hcov, BitVec.and_assoc, hmaskOp]
    · rw [OpcodeRow.mustBeZero, ← BitVec.and_assoc, hcov, hpatternLow]
  · rintro ⟨hop, hzero⟩
    rw [OpcodeRow.covers, hmask, BitVec.and_or_distrib_left, hop, hzero, hpatternOp]
    exact BitVec.or_zero

/-! ### What the decoder answers on a row's opcode -/

/-- On the words of the row's opcode the decoder answers the row's command, with the fields that assemble to the word, where
the row covers the word, and answers none elsewhere. -/
def OpcodeRow.Governs (r : OpcodeRow) (c : Command) : Prop :=
  bits c.cmd 31 24 = r.opcode →
    (c.cmd &&& r.mustBeZero = 0 → ∃ i, decode c = .ok i ∧ i.mnemonic = r.mnemonic ∧ encode i = c) ∧
    (c.cmd &&& r.mustBeZero ≠ 0 → ∃ e, decode c = .error e)

/-- A word is its opcode with the 24 bits below it (R93). -/
theorem toNat_eq_opcode_imm24 (v : Word) : v.toNat = bits v 31 24 * 2 ^ 24 + bits v 23 0 := by
  simp only [bits]
  omega

namespace OpcodeRow.Governs

variable {r : OpcodeRow} {c : Command}

/-- The decoder's line for a row: which command it answers, and under which must-be-zero bits. -/
theorem of_ifZero (mbz : Nat) (i : Instr)
    (hmask : c.cmd &&& r.mustBeZero = 0 ↔ mbz = 0)
    (hdecode : bits c.cmd 31 24 = r.opcode → decode c = ifZero mbz i)
    (hname : i.mnemonic = r.mnemonic) (hdata : i.wdata = c.wdata) (hopcode : i.opcode = r.opcode)
    (hfields : mbz = 0 → i.imm24 = bits c.cmd 23 0) : r.Governs c := by
  intro hop
  rw [hdecode hop, ifZero]
  constructor
  · intro hzero
    have hmbz : mbz = 0 := hmask.1 hzero
    have hencode : encode i = c :=
      encode_eq hdata (by rw [toNat_eq_opcode_imm24 c.cmd, hop, hopcode, hfields hmbz])
    exact ⟨i, if_pos hmbz, hname, hencode⟩
  · intro hzero
    exact ⟨.mustBeZero, if_neg (mt hmask.2 hzero)⟩

/-- A row whose must-be-zero bits are the field hi down to lo. What is left to check of a row as it stands is the decoder's
line for its opcode, and that the command's fields are the bits outside that field. -/
theorem of_range (hi lo : Nat) (i : Instr)
    (hdecode : bits c.cmd 31 24 = r.opcode → decode c = ifZero (bits c.cmd hi lo) i := by
      intro hop; rw [decode, hop]; rfl)
    (hfields : bits c.cmd hi lo = 0 → i.imm24 = bits c.cmd 23 0 := by
      simp only [bits, xregField, Instr.imm24]; omega)
    (hmask : r.mustBeZero = rangeMask hi lo := by rfl) (hname : i.mnemonic = r.mnemonic := by rfl)
    (hdata : i.wdata = c.wdata := by rfl) (hopcode : i.opcode = r.opcode := by rfl) : r.Governs c :=
  of_ifZero (bits c.cmd hi lo) i (hmask ▸ and_rangeMask_eq_zero_iff c.cmd hi lo) hdecode hname hdata hopcode hfields

/-- A row without must-be-zero bits. -/
theorem of_imm24 (i : Instr)
    (hdecode : bits c.cmd 31 24 = r.opcode → decode c = .ok i := by intro hop; rw [decode, hop]; rfl)
    (hfields : i.imm24 = bits c.cmd 23 0 := by rfl)
    (hmask : r.mustBeZero = 0 := by rfl) (hname : i.mnemonic = r.mnemonic := by rfl)
    (hdata : i.wdata = c.wdata := by rfl) (hopcode : i.opcode = r.opcode := by rfl) : r.Governs c :=
  of_ifZero 0 i (by simp [hmask]) hdecode hname hdata hopcode fun _ => hfields

/-- WEQ, the one row whose must-be-zero bits are two fields: 23:22 and 17:0 (R93). -/
theorem weq (c : Command) : OpcodeRow.Governs ⟨"WEQ", 0xFFC3FFFF, 0x4C000000⟩ c := by
  refine of_ifZero (bits c.cmd 23 22 + bits c.cmd 17 0) (.weq (xregField c.cmd 20) (xregField c.cmd 18) c.wdata)
    ?_ ?_ rfl rfl rfl ?_
  · have hmask : OpcodeRow.mustBeZero ⟨"WEQ", 0xFFC3FFFF, 0x4C000000⟩ = rangeMask 23 22 ||| rangeMask 17 0 := by rfl
    rw [hmask, BitVec.and_or_distrib_left, Nat.add_eq_zero_iff, ← and_rangeMask_eq_zero_iff,
      ← and_rangeMask_eq_zero_iff]
    exact BitVec.or_eq_zero_iff
  · intro hop
    rw [decode, hop]
    rfl
  · simp only [bits, xregField, Instr.imm24]
    omega

end OpcodeRow.Governs

theorem opcodeTable_governs (c : Command) : ∀ r ∈ opcodeTable, r.Governs c := by
  simp only [opcodeTable, opcodeRowsA, opcodeRowsB, List.cons_append, List.nil_append, List.forall_mem_cons,
    List.not_mem_nil, false_imp_iff, implies_true, and_true]
  exact
   ⟨.of_range 23 0 (.nop c.wdata),
    .of_range 23 8 (.rdreg (bits c.cmd 7 0) c.wdata),
    .of_range 23 8 (.wrreg (bits c.cmd 7 0) c.wdata),
    .of_range 23 0 (.init c.wdata),
    .of_range 23 0 (.hash c.wdata),
    .of_imm24 (.msgwr (bits c.cmd 23 0) c.wdata),
    .of_imm24 (.msgrd (bits c.cmd 23 0) c.wdata),
    .of_range 23 0 (.pad c.wdata),
    .of_imm24 (.padrd (bits c.cmd 23 0) c.wdata),
    .of_imm24 (.wload (bits c.cmd 23 0) c.wdata),
    .of_range 23 6 (.wstep (bits c.cmd 5 0) c.wdata),
    .of_imm24 (.expand (bits c.cmd 23 0) c.wdata),
    .of_range 23 0 (.cload c.wdata),
    .of_range 23 6 (.round (bits c.cmd 5 0) c.wdata),
    .of_range 23 0 (.cfold c.wdata),
    .of_range 23 0 (.compress c.wdata),
    .of_range 21 8 (.wldi (xregField c.cmd 22) (bits c.cmd 7 0) c.wdata),
    .of_range 21 3 (.wldb (xregField c.cmd 22) (bits c.cmd 2 0) c.wdata),
    .of_range 17 0 (.add (xregField c.cmd 22) (xregField c.cmd 20) (xregField c.cmd 18) c.wdata),
    .of_range 19 6 (.shr (xregField c.cmd 22) (xregField c.cmd 20) (bits c.cmd 5 0) c.wdata),
    .of_range 19 6 (.rotr (xregField c.cmd 22) (xregField c.cmd 20) (bits c.cmd 5 0) c.wdata),
    .of_range 17 0 (.xor (xregField c.cmd 22) (xregField c.cmd 20) (xregField c.cmd 18) c.wdata),
    .of_range 15 0 (.ch (xregField c.cmd 22) (xregField c.cmd 20) (xregField c.cmd 18) (xregField c.cmd 16) c.wdata),
    .of_range 15 0 (.maj (xregField c.cmd 22) (xregField c.cmd 20) (xregField c.cmd 18) (xregField c.cmd 16) c.wdata),
    .of_range 19 0 (.sigma0 (xregField c.cmd 22) (xregField c.cmd 20) c.wdata),
    .of_range 19 0 (.sigma1 (xregField c.cmd 22) (xregField c.cmd 20) c.wdata),
    .of_range 19 0 (.usigma0 (xregField c.cmd 22) (xregField c.cmd 20) c.wdata),
    .of_range 19 0 (.usigma1 (xregField c.cmd 22) (xregField c.cmd 20) c.wdata),
    .weq c⟩

/-- Bits 31:24 that are the opcode of no row make the word illegal (R97 (a)). -/
theorem decode_of_no_opcode {c : Command} (h : ∀ r ∈ opcodeTable, bits c.cmd 31 24 ≠ r.opcode) :
    decode c = .error .unassignedOpcode := by
  replace h : bits c.cmd 31 24 ∉ opcodeTable.map OpcodeRow.opcode := by simpa [eq_comm] using h
  rw [show opcodeTable.map OpcodeRow.opcode = [0x00, 0x01, 0x02, 0x03, 0x04, 0x10, 0x11, 0x12, 0x13, 0x20, 0x21, 0x22, 0x30,
    0x31, 0x32, 0x33, 0x40, 0x41, 0x42, 0x43, 0x44, 0x45, 0x46, 0x47, 0x48, 0x49, 0x4A, 0x4B, 0x4C] from rfl] at h
  simp only [List.mem_cons, List.not_mem_nil, not_or] at h
  simp [decode, h]

/-! ### Rows and the decoder, both ways -/

theorem OpcodeRow.covers_unique {r q : OpcodeRow} (hr : r ∈ opcodeTable) (hq : q ∈ opcodeTable) {v : Word}
    (hrv : r.covers v) (hqv : q.covers v) : r = q := by
  obtain ⟨hrop, _⟩ := (r.covers_iff hr v).1 hrv
  obtain ⟨hqop, _⟩ := (q.covers_iff hq v).1 hqv
  exact opcodeTable_opcode_injective r hr q hq (hrop.symm.trans hqop)

/-- A word that a row covers is that row's command, with the fields that assemble to it. -/
theorem OpcodeRow.decode_of_covers {r : OpcodeRow} (hr : r ∈ opcodeTable) {c : Command} (hcov : r.covers c.cmd) :
    ∃ i, decode c = .ok i ∧ i.mnemonic = r.mnemonic ∧ encode i = c := by
  obtain ⟨hop, hzero⟩ := (r.covers_iff hr c.cmd).1 hcov
  exact (opcodeTable_governs c r hr hop).1 hzero

/-- A word that decodes is covered by some row. -/
theorem exists_covers_of_decode {c : Command} {i : Instr} (hi : decode c = .ok i) :
    ∃ r ∈ opcodeTable, r.covers c.cmd := by
  by_cases hop : ∃ r ∈ opcodeTable, bits c.cmd 31 24 = r.opcode
  · obtain ⟨r, hr, hop⟩ := hop
    refine ⟨r, hr, (r.covers_iff hr c.cmd).2 ⟨hop, ?_⟩⟩
    by_contra hzero
    obtain ⟨e, he⟩ := (opcodeTable_governs c r hr hop).2 hzero
    cases hi.symm.trans he
  · push Not at hop
    cases hi.symm.trans (decode_of_no_opcode hop)

theorem OpcodeRow.covers_iff_decode {r : OpcodeRow} (hr : r ∈ opcodeTable) (c : Command) :
    r.covers c.cmd ↔ ∃ i, decode c = .ok i ∧ i.mnemonic = r.mnemonic ∧ encode i = c := by
  refine ⟨decode_of_covers hr, ?_⟩
  rintro ⟨i, hi, hname, _⟩
  obtain ⟨q, hq, hqcov⟩ := exists_covers_of_decode hi
  obtain ⟨j, hj, hqname, _⟩ := decode_of_covers hq hqcov
  cases hi.symm.trans hj
  rwa [opcodeTable_mnemonic_injective r hr q hq (hname.symm.trans hqname)]

theorem decode_error_iff (c : Command) : (∃ e, decode c = .error e) ↔ ∀ r ∈ opcodeTable, ¬ r.covers c.cmd := by
  constructor
  · rintro ⟨e, he⟩ r hr hcov
    obtain ⟨i, hi, _⟩ := r.decode_of_covers hr hcov
    cases hi.symm.trans he
  · intro hnone
    cases hd : decode c with
    | error e => exact ⟨e, rfl⟩
    | ok i =>
      obtain ⟨r, hr, hcov⟩ := exists_covers_of_decode hd
      exact absurd hcov (hnone r hr)

/-- Settles O4: each row governs the words of its opcode, and no two rows share an opcode or a mnemonic. -/
theorem decodeFollowsOpcodeTable : Obligations.DecodeFollowsOpcodeTable := by
  unfold Obligations.DecodeFollowsOpcodeTable
  intro c
  exact ⟨fun r hr => r.covers_iff_decode hr c, fun r hr q hq => r.covers_unique hr hq, decode_error_iff c⟩

end Sys2Proof.Machine

/-! PROOF. The commands of the word_arithmetic_unit that name registers only (R140, R143 to R150): their words, their results
number by number or bit by bit, and the one frame they share; and the shift amounts that fault (R153). -/

namespace Sys2Proof.Machine

/-! ### Words of the register formats -/

/-- The word of the formats that hold an opcode and registers only (R93); a register a format does not have stands as 0. -/
def registerWord (op : Nat) (rd ra rb rc : XReg) : Word :=
  BitVec.ofNat 32 (op * 2 ^ 24 + rd.val * 2 ^ 22 + ra.val * 2 ^ 20 + rb.val * 2 ^ 18 + rc.val * 2 ^ 16)

namespace registerWord

variable (op : Nat) (rd ra rb rc : XReg)

theorem of_three : registerWord op rd ra rb 0 =
    BitVec.ofNat 32 (op * 2 ^ 24 + rd.val * 2 ^ 22 + ra.val * 2 ^ 20 + rb.val * 2 ^ 18) := by
  simp [registerWord]

theorem of_two : registerWord op rd ra 0 0 = BitVec.ofNat 32 (op * 2 ^ 24 + rd.val * 2 ^ 22 + ra.val * 2 ^ 20) := by
  simp [registerWord]

theorem of_two_sources : registerWord op 0 ra rb 0 =
    BitVec.ofNat 32 (op * 2 ^ 24 + ra.val * 2 ^ 20 + rb.val * 2 ^ 18) := by
  simp [registerWord]

/-- The number of the word, as far as its 32 bits hold it. -/
theorem toNat_eq : (registerWord op rd ra rb rc).toNat =
    (op * 2 ^ 24 + rd.val * 2 ^ 22 + ra.val * 2 ^ 20 + rb.val * 2 ^ 18 + rc.val * 2 ^ 16) % 2 ^ 32 := BitVec.toNat_ofNat ..

variable {op} in
@[simp] theorem bits_opcode (hop : op < 2 ^ 8) : bits (registerWord op rd ra rb rc) 31 24 = op := by
  simp only [bits, toNat_eq]
  omega

@[simp] theorem xregField_rd : xregField (registerWord op rd ra rb rc) 22 = rd :=
  xregField_eq (by rw [toNat_eq]; omega)

@[simp] theorem xregField_ra : xregField (registerWord op rd ra rb rc) 20 = ra :=
  xregField_eq (by rw [toNat_eq]; omega)

@[simp] theorem xregField_rb : xregField (registerWord op rd ra rb rc) 18 = rb :=
  xregField_eq (by rw [toNat_eq]; omega)

@[simp] theorem xregField_rc : xregField (registerWord op rd ra rb rc) 16 = rc :=
  xregField_eq (by rw [toNat_eq]; omega)

@[simp] theorem bits_below_rc : bits (registerWord op rd ra rb rc) 15 0 = 0 := by
  simp only [bits, toNat_eq]
  omega

@[simp] theorem bits_below_rb : bits (registerWord op rd ra rb 0) 17 0 = 0 := by
  simp only [bits, toNat_eq]
  omega

@[simp] theorem bits_below_ra : bits (registerWord op rd ra 0 0) 19 0 = 0 := by
  simp only [bits, toNat_eq]
  omega

@[simp] theorem bits_without_rd : bits (registerWord op 0 ra rb rc) 23 22 = 0 := by
  simp only [bits, toNat_eq]
  omega

end registerWord

section Decoding

variable (rd ra rb rc : XReg) (d : Word)

theorem decode_add : decode ⟨registerWord 0x42 rd ra rb 0, d⟩ = .ok (.add rd ra rb d) := by
  simp [decode, ifZero]

theorem decode_xor : decode ⟨registerWord 0x45 rd ra rb 0, d⟩ = .ok (.xor rd ra rb d) := by
  simp [decode, ifZero]

theorem decode_ch : decode ⟨registerWord 0x46 rd ra rb rc, d⟩ = .ok (.ch rd ra rb rc d) := by
  simp [decode, ifZero]

theorem decode_maj : decode ⟨registerWord 0x47 rd ra rb rc, d⟩ = .ok (.maj rd ra rb rc d) := by
  simp [decode, ifZero]

theorem decode_sigma0 : decode ⟨registerWord 0x48 rd ra 0 0, d⟩ = .ok (.sigma0 rd ra d) := by
  simp [decode, ifZero]

theorem decode_sigma1 : decode ⟨registerWord 0x49 rd ra 0 0, d⟩ = .ok (.sigma1 rd ra d) := by
  simp [decode, ifZero]

theorem decode_usigma0 : decode ⟨registerWord 0x4A rd ra 0 0, d⟩ = .ok (.usigma0 rd ra d) := by
  simp [decode, ifZero]

theorem decode_usigma1 : decode ⟨registerWord 0x4B rd ra 0 0, d⟩ = .ok (.usigma1 rd ra d) := by
  simp [decode, ifZero]

theorem decode_weq : decode ⟨registerWord 0x4C 0 ra rb 0, d⟩ = .ok (.weq ra rb d) := by
  simp [decode, ifZero]

end Decoding

section ShiftWords

variable (rd ra : XReg) (n : Nat) (d : Word)

theorem encode_shr_cmd : (encode (.shr rd ra n d)).cmd =
    BitVec.ofNat 32 (0x43 * 2 ^ 24 + rd.val * 2 ^ 22 + ra.val * 2 ^ 20 + n) := by
  simp only [encode, Instr.opcode, Instr.imm24, Nat.add_assoc]

theorem encode_rotr_cmd : (encode (.rotr rd ra n d)).cmd =
    BitVec.ofNat 32 (0x44 * 2 ^ 24 + rd.val * 2 ^ 22 + ra.val * 2 ^ 20 + n) := by
  simp only [encode, Instr.opcode, Instr.imm24, Nat.add_assoc]

end ShiftWords

/-! ### The functions bit by bit -/

theorem addW_toNat (x y : Word) : (addW x y).toNat = (x.toNat + y.toNat) % 2 ^ 32 := BitVec.toNat_ofNat ..

theorem getLsbD_chW (x y z : Word) {k : Nat} (hk : k < 32) :
    (chW x y z).getLsbD k = if x.getLsbD k then y.getLsbD k else z.getLsbD k := by
  simp only [chW, BitVec.getLsbD_xor, BitVec.getLsbD_and, BitVec.getLsbD_not, hk]
  cases x.getLsbD k <;> simp

theorem getLsbD_majW (x y z : Word) (k : Nat) :
    (majW x y z).getLsbD k = decide (2 ≤ (x.getLsbD k).toNat + (y.getLsbD k).toNat + (z.getLsbD k).toNat) := by
  simp only [majW, BitVec.getLsbD_xor, BitVec.getLsbD_and]
  generalize x.getLsbD k = a, y.getLsbD k = b, z.getLsbD k = c
  revert a b c
  decide

section Sigmas

variable (x : Word) {k : Nat} (hk : k < 32)
include hk

theorem getLsbD_sigma0W : (sigma0W x).getLsbD k =
    ((x.getLsbD ((k + 7) % 32) != x.getLsbD ((k + 18) % 32)) != x.getLsbD (k + 3)) := by
  simp only [sigma0W, BitVec.getLsbD_xor, getLsbD_rotrW _ _ hk, getLsbD_shrW]
  rfl

theorem getLsbD_sigma1W : (sigma1W x).getLsbD k =
    ((x.getLsbD ((k + 17) % 32) != x.getLsbD ((k + 19) % 32)) != x.getLsbD (k + 10)) := by
  simp only [sigma1W, BitVec.getLsbD_xor, getLsbD_rotrW _ _ hk, getLsbD_shrW]
  rfl

theorem getLsbD_usigma0W : (usigma0W x).getLsbD k =
    ((x.getLsbD ((k + 2) % 32) != x.getLsbD ((k + 13) % 32)) != x.getLsbD ((k + 22) % 32)) := by
  simp only [usigma0W, BitVec.getLsbD_xor, getLsbD_rotrW _ _ hk]
  rfl

theorem getLsbD_usigma1W : (usigma1W x).getLsbD k =
    ((x.getLsbD ((k + 6) % 32) != x.getLsbD ((k + 11) % 32)) != x.getLsbD ((k + 25) % 32)) := by
  simp only [usigma1W, BitVec.getLsbD_xor, getLsbD_rotrW _ _ hk]
  rfl

end Sigmas

/-! ### The commands -/

/-- A word-unit command that completes: its result goes to `X[rd]` and into the response, and nothing else changes (R151). -/
theorem exec_completes {i : Instr} {s : State} (hf : s.fault = false) {rd : XReg} {r : Word} {P : Word → Prop}
    (hexec : exec i s = runCommand i s (.ok (s.setResult rd r))) (hr : P r) :
    ∃ r, P r ∧ exec i s = .next { s with x := s.x.set rd.val r, rsp := some ⟨true, r⟩ } :=
  ⟨r, hr, hexec.trans (runCommand_ok i (s.writeX rd r) r hf)⟩

/-- Settles O22: the bits of `chW` and `majW`, in the frame of the word unit. -/
theorem chMajComplete : Obligations.ChMajComplete := by
  unfold Obligations.ChMajComplete
  intro rd ra rb rc d s hf
  exact ⟨decode_ch rd ra rb rc d, decode_maj rd ra rb rc d,
    exec_completes hf (exec_ch ..) fun _ hk => getLsbD_chW _ _ _ hk,
    exec_completes hf (exec_maj ..) fun k _ => getLsbD_majW _ _ _ k⟩

/-- Settles O25: the bits of the four sigma functions, in the frame of the word unit. -/
theorem sigmasComplete : Obligations.SigmasComplete := by
  unfold Obligations.SigmasComplete
  intro rd ra d s hf
  exact ⟨registerWord.of_two .. ▸ decode_sigma0 rd ra d, registerWord.of_two .. ▸ decode_sigma1 rd ra d,
    registerWord.of_two .. ▸ decode_usigma0 rd ra d, registerWord.of_two .. ▸ decode_usigma1 rd ra d,
    exec_completes hf (exec_sigma0 ..) fun _ hk => getLsbD_sigma0W _ hk,
    exec_completes hf (exec_sigma1 ..) fun _ hk => getLsbD_sigma1W _ hk,
    exec_completes hf (exec_usigma0 ..) fun _ hk => getLsbD_usigma0W _ hk,
    exec_completes hf (exec_usigma1 ..) fun _ hk => getLsbD_usigma1W _ hk⟩

/-- Settles O20: the number of `addW`, in the frame of the word unit. -/
theorem addCompletes : Obligations.AddCompletes := by
  unfold Obligations.AddCompletes
  intro rd ra rb d s hf
  exact ⟨registerWord.of_three .. ▸ decode_add rd ra rb d, exec_completes hf (exec_add ..) (addW_toNat _ _)⟩

/-- Settles O21: the bits of `xorW`, in the frame of the word unit. -/
theorem xorCompletes : Obligations.XorCompletes := by
  unfold Obligations.XorCompletes
  intro rd ra rb d s hf
  exact ⟨registerWord.of_three .. ▸ decode_xor rd ra rb d,
    exec_completes hf (exec_xor ..) fun _ _ => BitVec.getLsbD_xor⟩

/-- Settles O24: the check of the amount raises IllegalOperand, and the fault entry records the word it assembles to. -/
theorem shiftsBeyond32Fault : Obligations.ShiftsBeyond32Fault := by
  unfold Obligations.ShiftsBeyond32Fault
  intro rd ra n d s hf hn _
  have hamount : ¬ n ≤ 32 := by omega
  constructor
  · rw [exec_shr, dif_neg hamount, runCommand_error _ _ hf, State.raise, encode_shr_cmd]
    rfl
  · rw [exec_rotr, dif_neg hamount, runCommand_error _ _ hf, State.raise, encode_rotr_cmd]
    rfl

/-- Settles O28: the comparison of the two Words is that of their numbers, and the effect writes nothing. -/
theorem weqAnswersEquality : Obligations.WeqAnswersEquality := by
  unfold Obligations.WeqAnswersEquality
  intro ra rb d s hf
  refine ⟨?_, ?_, ?_⟩
  · exact registerWord.of_two_sources .. ▸ decode_weq ra rb d
  · intro heq
    rw [exec_weq, runCommand_ok _ _ _ hf, eqW, decide_eq_true (BitVec.eq_of_toNat_eq heq)]
    rfl
  · intro hne
    rw [exec_weq, runCommand_ok _ _ _ hf, eqW, decide_eq_false (mt (congrArg BitVec.toNat) hne)]
    rfl

end Sys2Proof.Machine

/-! PROOF. The renderings (R136, R137, R232): digit k of a fixed-width numeral, and that the digits determine the number. -/

namespace Sys2Proof.Machine

/-! ### Fixed-width numerals -/

theorem digitsOf_length (base n v : Nat) : (digitsOf base n v).length = n := by
  induction n with
  | zero => rfl
  | succ n ih => rw [digitsOf, List.length_cons, ih]

/-- The most significant digit comes first. -/
theorem digitsOf_getElem? (base v : Nat) {n k : Nat} (hk : k < n) :
    (digitsOf base n v)[k]? = some (hexDigits.getD (v / base ^ (n - 1 - k) % base) '0') := by
  induction n generalizing k with
  | zero => omega
  | succ n ih =>
    cases k with
    | zero => simp [digitsOf]
    | succ k =>
      have hplace : n - 1 - k = n + 1 - 1 - (k + 1) := by omega
      rw [digitsOf, List.getElem?_cons_succ, ih (by omega), hplace]

theorem hexDigits_getD_inj : ∀ a < 16, ∀ b < 16, hexDigits.getD a '0' = hexDigits.getD b '0' → a = b := by decide

/-- The digits of a number in a base that `hexDigits` has digits for determine it, below the power they reach. -/
theorem digitsOf_inj {base : Nat} (hpos : 0 < base) (hbase : base ≤ 16) {n u v : Nat}
    (h : digitsOf base n u = digitsOf base n v) : u % base ^ n = v % base ^ n := by
  induction n with
  | zero => simp [Nat.mod_one]
  | succ n ih =>
    obtain ⟨hdigit, hrest⟩ := List.cons_eq_cons.1 h
    have hlt (w : Nat) : w / base ^ n % base < 16 := (Nat.mod_lt _ hpos).trans_le hbase
    have htop : u / base ^ n % base = v / base ^ n % base := hexDigits_getD_inj _ (hlt u) _ (hlt v) hdigit
    rw [Nat.mod_pow_succ, Nat.mod_pow_succ, ih hrest, htop]

/-! ### The renderings of a Word -/

theorem hexDigits_eq : hexDigits = "0123456789abcdef".toList := rfl

theorem hex8_length (x : Word) : (hex8 x).length = 8 := digitsOf_length ..

theorem hex8_getElem? (x : Word) {k : Nat} (hk : k < 8) : (hex8 x)[k]? = hexDigits[x.toNat / 16 ^ (7 - k) % 16]? := by
  have hlt : x.toNat / 16 ^ (7 - k) % 16 < hexDigits.length := Nat.mod_lt _ (by decide)
  rw [hex8, digitsOf_getElem? _ _ hk, List.getD_eq_getElem _ _ hlt, List.getElem?_eq_getElem hlt]

theorem hex8_injective : Function.Injective hex8 := by
  intro x y h
  have hmod : x.toNat % 2 ^ 32 = y.toNat % 2 ^ 32 := digitsOf_inj (base := 16) (n := 8) (by decide) (by decide) h
  rw [Nat.mod_eq_of_lt x.isLt, Nat.mod_eq_of_lt y.isLt] at hmod
  exact BitVec.eq_of_toNat_eq hmod

theorem hexW_injective : Function.Injective hexW := by
  intro x y h
  simp only [hexW, List.cons.injEq, true_and] at h
  exact hex8_injective h

theorem binW_getElem? (x : Word) {k : Nat} (hk : k < 32) :
    (binW x)[k]? = some (if x.getLsbD (31 - k) then '1' else '0') := by
  rw [binW, digitsOf_getElem? _ _ hk, BitVec.getLsbD, Nat.testBit_eq_decide_div_mod_eq]
  rcases Nat.mod_two_eq_zero_or_one (x.toNat / 2 ^ (31 - k)) with h | h <;> simp [h, hexDigits]

/-! ### The rendering of a digest -/

/-- Where every piece of a `flatMap` has the same length, piece j is cut out again by its place. -/
theorem take_drop_flatMap {α β : Type} {f : α → List β} {m : Nat} (hf : ∀ a, (f a).length = m) {l : List α} {j : Nat}
    {a : α} (h : l[j]? = some a) : ((l.flatMap f).drop (m * j)).take m = f a := by
  induction l generalizing j with
  | nil => cases h
  | cons b l ih =>
    rw [List.flatMap_cons]
    cases j with
    | zero =>
      obtain rfl : b = a := Option.some.inj h
      exact List.take_left' (hf b)
    | succ j =>
      rw [Nat.mul_succ, Nat.add_comm, ← List.drop_drop, List.drop_left' (hf b)]
      exact ih h

theorem words8List_getElem? (h : Words8) (j : Fin 8) : (words8List h)[j.val]? = some (h.get j) := by
  fin_cases j <;> rfl

theorem Words8.ext_get {u v : Words8} (h : ∀ j, u.get j = v.get j) : u = v := by
  cases u
  cases v
  congr
  exacts [h 0, h 1, h 2, h 3, h 4, h 5, h 6, h 7]

theorem digestHex_length (h : Words8) : (digestHex h).length = 64 := by
  simp [digestHex, words8List, hex8_length]

theorem digestHex_word (h : Words8) (j : Fin 8) : ((digestHex h).drop (8 * j.val)).take 8 = hex8 (h.get j) :=
  take_drop_flatMap hex8_length (words8List_getElem? h j)

theorem digestHex_injective : Function.Injective digestHex := by
  intro u v h
  apply Words8.ext_get
  intro j
  apply hex8_injective
  rw [← digestHex_word u j, h, digestHex_word v j]

/-- Settles O54: each digit stands at its place, and the digits of each Word determine it. -/
theorem renderingsAreFaithful : Obligations.RenderingsAreFaithful := by
  unfold Obligations.RenderingsAreFaithful
  refine ⟨fun x => ⟨?_, rfl, fun k hk => ⟨_, rfl, ?_⟩⟩, hexW_injective,
    fun x => ⟨digitsOf_length .., fun k hk => binW_getElem? x hk⟩,
    fun h => ⟨digestHex_length h, digestHex_word h⟩, digestHex_injective⟩
  · simp [hexW, hex8_length]
  · rw [hex8_getElem? x hk, hexDigits_eq]

end Sys2Proof.Machine

/-! PROOF. The padder: what PAD makes of each answer of the padding step (R165, R169), and the parts of the padded message
(R161, R170): where each stands, and that the last eight bytes read back as the bit length. -/

namespace Sys2Proof.Machine

/-! ### The padding step and PAD -/

section Pad

variable {s : State}

theorem State.ensurePad_of_memo (hp : s.padValid = true) : s.ensurePad = .ok s := by
  simp [State.ensurePad, hp]

theorem State.ensurePad_computes (hp : s.padValid = false) (h8 : s.bitLen % 8 = 0) : s.ensurePad = .ok s.padWrites := by
  simp [State.ensurePad, hp, h8]

theorem State.ensurePad_misaligned (hp : s.padValid = false) (h8 : s.bitLen % 8 ≠ 0) :
    s.ensurePad = .error .paddingAlignment := by
  simp [State.ensurePad, hp, h8]

theorem exec_pad_ok (d : Word) {t : State} (hf : s.fault = false) (he : s.ensurePad = .ok t) :
    exec (.pad d) s = .next (t.respond true 0) := by
  rw [exec_pad, he]
  exact runCommand_ok _ _ _ hf

theorem exec_pad_error (d : Word) {f : FaultKind} (hf : s.fault = false) (he : s.ensurePad = .error f) :
    exec (.pad d) s = .next (s.raise f (encode (.pad d))) := by
  rw [exec_pad, he]
  exact runCommand_error _ _ hf

end Pad

theorem decode_pad (d : Word) : decode ⟨0x12000000, d⟩ = .ok (.pad d) := by
  simp [decode, ifZero, bits]

/-- What a word decodes to assembles to the word again. -/
theorem encode_of_decode {c : Command} {i : Instr} (hi : decode c = .ok i) : encode i = c := by
  obtain ⟨r, hr, hcov⟩ := exists_covers_of_decode hi
  obtain ⟨j, hj, _, hencode⟩ := r.decode_of_covers hr hcov
  cases hi.symm.trans hj
  exact hencode

/-- Settles O35: each clause is one answer of the padding step, and PAD adds only the response. -/
theorem padDerivesBlockCount : Obligations.PadDerivesBlockCount := by
  unfold Obligations.PadDerivesBlockCount
  intro d s hf
  refine ⟨decode_pad d, fun hp => ?_, fun hp h8 => ?_, fun hp h8 => ?_⟩
  · exact exec_pad_ok d hf (State.ensurePad_of_memo hp)
  · exact ⟨s.padWrites.blkCount, s.padWrites_blkCount_toNat, exec_pad_ok d hf (State.ensurePad_computes hp h8)⟩
  · rw [exec_pad_error d hf (State.ensurePad_misaligned hp h8), encode_of_decode (decode_pad d)]
    rfl

/-! ### Block counts -/

/-- The blocks have room for the message, the byte 0x80 and the eight bytes of the length. -/
theorem le_blockCountOf (n : Nat) : n + 9 ≤ 64 * blockCountOf n := by
  unfold blockCountOf
  omega

/-- No fewer blocks have that room. -/
theorem blockCountOf_least {n q : Nat} (hq : q % 64 = 0) (hn : n + 9 ≤ q) : 64 * blockCountOf n ≤ q := by
  unfold blockCountOf
  omega

theorem blockCountOf_eq_iff (n k : Nat) : blockCountOf n = k + 1 ↔ 64 * k ≤ n + 8 ∧ n + 8 < 64 * (k + 1) := by
  unfold blockCountOf
  omega

/-! ### Big-endian bytes -/

/-- Reading n big-endian bytes back, most significant first, gives the number modulo 256^n. -/
theorem foldl_beBytes (n v a : Nat) :
    (beBytes n v).foldl (fun acc b => 256 * acc + b.toNat) a = 256 ^ n * a + v % 256 ^ n := by
  induction n generalizing a with
  | zero => simp [beBytes, Nat.mod_one]
  | succ n ih =>
    calc (beBytes (n + 1) v).foldl (fun acc b => 256 * acc + b.toNat) a
      _ = 256 ^ n * (256 * a + v / 256 ^ n % 256) + v % 256 ^ n := by
        rw [beBytes, List.foldl_cons, ih, BitVec.toNat_ofNat, Nat.pow_mul]
      _ = 256 ^ (n + 1) * a + v % 256 ^ (n + 1) := by
        rw [Nat.mod_pow_succ]
        ring

/-! ### The parts of the padded message -/

section PaddedMessage

variable (m : List Byte)

theorem paddedMessage_length : (paddedMessage m).length = 64 * blockCountOf m.length := by
  have hroom : m.length + 9 ≤ 64 * blockCountOf m.length := le_blockCountOf m.length
  simp only [paddedMessage, List.length_append, List.length_singleton, List.length_replicate, beBytes_length]
  omega

theorem paddedMessage_take : (paddedMessage m).take m.length = m := by
  simp [paddedMessage]

theorem paddedMessage_drop : (paddedMessage m).drop ((paddedMessage m).length - 8) = beBytes 8 (8 * m.length) := by
  refine List.drop_left' ?_
  simp only [paddedMessage, List.length_append, beBytes_length, Nat.add_sub_cancel]

theorem paddedMessage_getD_marker (z : Byte) : (paddedMessage m).getD m.length z = 0x80 := by
  simp [paddedMessage]

variable {m} in
theorem paddedMessage_getD_zero {k : Nat} (hlo : m.length < k) (hhi : k < (paddedMessage m).length - 8) (z : Byte) :
    (paddedMessage m).getD k z = 0x00 := by
  rw [paddedMessage_length] at hhi
  have hmarker : (m ++ [(0x80 : Byte)]).length ≤ k := by simpa using hlo
  have hzeros : k - (m ++ [(0x80 : Byte)]).length < 64 * blockCountOf m.length - m.length - 9 := by
    rw [List.length_append, List.length_singleton]
    omega
  have hlength : k < (m ++ [0x80] ++ List.replicate (64 * blockCountOf m.length - m.length - 9) (0x00 : Byte)).length := by
    rw [List.length_append, List.length_replicate]
    omega
  rw [paddedMessage, List.getD_append _ _ _ _ hlength, List.getD_append_right _ _ _ _ hmarker,
    List.getD_replicate _ hzeros]

end PaddedMessage

theorem paddedMessage_nil : paddedMessage [] = 0x80 :: List.replicate 63 0x00 := by decide

/-- Settles O37: the padded message is its four parts laid end to end, in the least number of blocks that has room. -/
theorem paddedMessageShape : Obligations.PaddedMessageShape := by
  unfold Obligations.PaddedMessageShape
  refine ⟨fun m hm => ⟨paddedMessage_length m, Nat.succ_pos _, fun q hq hn => ?_, ?_, paddedMessage_take m,
    paddedMessage_getD_marker m 0, fun k hlo hhi => paddedMessage_getD_zero hlo hhi 1, ?_⟩, fun n => ⟨?_, ?_, ?_⟩,
    paddedMessage_nil⟩
  · rw [paddedMessage_length]
    exact blockCountOf_least hq hn
  · rw [paddedMessage_length]
    exact le_blockCountOf m.length
  · have hlt : 8 * m.length < 256 ^ 8 := hm.trans_eq (by decide)
    rw [paddedMessage_drop, foldl_beBytes, Nat.mul_zero, Nat.zero_add, Nat.mod_eq_of_lt hlt]
  · rw [blockCountOf_eq_iff n 0]
    omega
  · rw [blockCountOf_eq_iff n 1]
    omega
  · rw [blockCountOf_eq_iff n 2]
    omega

end Sys2Proof.Machine

/-! PROOF. The schedule expander: the padded view is the padded message (R162), so a block loads the block's words (R181); the
recurrence gives every later word (R182); EXPAND is both (R186). -/

namespace Sys2Proof.Machine

/-! ### The padded view -/

section PaddedView

variable {m : List Byte}

theorem paddedMessage_getD_message {k : Nat} (hk : k < m.length) (z : Byte) : (paddedMessage m).getD k z = m.getD k z := by
  rw [paddedMessage, List.append_assoc, List.append_assoc]
  exact List.getD_append _ _ _ _ hk

theorem paddedMessage_getD_bitLength {k : Nat} (hlo : (paddedMessage m).length - 8 ≤ k) (hhi : k < (paddedMessage m).length) :
    (paddedMessage m).getD k 0 = BitVec.ofNat 8 (8 * m.length / 2 ^ (8 * ((paddedMessage m).length - 1 - k))) := by
  have hroom : m.length + 9 ≤ (paddedMessage m).length := paddedMessage_length m ▸ le_blockCountOf m.length
  calc (paddedMessage m).getD k 0
    _ = ((paddedMessage m).drop ((paddedMessage m).length - 8)).getD (k - ((paddedMessage m).length - 8)) 0 := by
      rw [List.getD_eq_getElem?_getD, List.getD_eq_getElem?_getD, List.getElem?_drop, Nat.add_sub_cancel' hlo]
    _ = BitVec.ofNat 8 (8 * m.length / 2 ^ (8 * (8 - 1 - (k - ((paddedMessage m).length - 8))))) := by
      rw [paddedMessage_drop, beBytes_getD 8 _ _ (by omega)]
    _ = _ := by
      rw [show 8 - 1 - (k - ((paddedMessage m).length - 8)) = (paddedMessage m).length - 1 - k by omega]

end PaddedView

variable {s : State}

theorem State.message_getD {j : Nat} (hj : j < s.byteLen) (z : Byte) : s.message.getD j z = s.msgByte j := by
  simp [State.message, hj]

/-- The padded view is the padded message, in each of its four ranges (R162). -/
theorem State.paddedByte_eq (h8 : s.bitLen % 8 = 0) {j : Nat} (hj : j < s.paddedLen) :
    s.paddedByte j = (paddedMessage s.message).getD j 0 := by
  have hlength : (paddedMessage s.message).length = s.paddedLen := by
    rw [paddedMessage_length, State.message_length]
    rfl
  unfold State.paddedByte
  split_ifs with hmessage hmarker hzero
  · rw [paddedMessage_getD_message (by rwa [State.message_length]), State.message_getD hmessage]
  · rw [hmarker, ← State.message_length, paddedMessage_getD_marker]
  · refine (paddedMessage_getD_zero ?_ (by rwa [hlength]) 0).symm
    rw [State.message_length]
    omega
  · have hbits : 8 * s.message.length = s.bitLen := by
      rw [State.message_length, State.byteLen]
      omega
    rw [paddedMessage_getD_bitLength (by omega) (by omega), hlength, hbits]
    exact BitVec.eq_of_toNat_eq (by simp)

/-! ### The words of a block -/

theorem State.blockWord_eq (h8 : s.bitLen % 8 = 0) {idx t : Nat} (hidx : idx < s.blocks) (ht : t < 16) :
    s.blockWord idx t = wordAt (paddedMessage s.message) (64 * idx + 4 * t) := by
  have hroom : 64 * idx + 4 * t + 3 < s.paddedLen := by
    unfold State.paddedLen
    omega
  simp only [State.blockWord, wordAt]
  rw [State.paddedByte_eq h8 (by omega), State.paddedByte_eq h8 (by omega), State.paddedByte_eq h8 (by omega),
    State.paddedByte_eq h8 hroom]

theorem State.map_blockWord (h8 : s.bitLen % 8 = 0) {idx : Nat} (hidx : idx < s.blocks) :
    (List.range 16).map (s.blockWord idx) = blockWordsOf (paddedMessage s.message) idx :=
  List.map_congr_left fun _ ht => State.blockWord_eq h8 hidx (List.mem_range.mp ht)

theorem blockWordsOf_getD (bs : List Byte) (idx : Nat) {t : Nat} (ht : t < 16) :
    (blockWordsOf bs idx).getD t 0 = wordAt bs (64 * idx + 4 * t) := by
  simp [blockWordsOf, ht]

/-! ### The recurrence -/

/-- The recurrence for entry t reads only entries below t. -/
theorem scheduleNext_append (w u : List Word) {t : Nat} (hpos : 0 < t) (ht : t ≤ w.length) :
    scheduleNext (w ++ u) t = scheduleNext w t := by
  simp only [scheduleNext]
  rw [List.getD_append _ _ _ (t - 2) (by omega), List.getD_append _ _ _ (t - 7) (by omega),
    List.getD_append _ _ _ (t - 15) (by omega), List.getD_append _ _ _ (t - 16) (by omega)]

/-- Every entry that the recurrence has added satisfies it in the schedule that came out. -/
theorem extendScheduleN_getD_next (n : Nat) (w : List Word) {t : Nat} (hpos : 0 < t) (hlo : w.length ≤ t)
    (hhi : t < w.length + n) : (extendScheduleN n w).getD t 0 = scheduleNext (extendScheduleN n w) t := by
  induction n with
  | zero => omega
  | succ n ih =>
    have hlength := extendScheduleN_length n w
    rw [extendScheduleN_succ, extendSchedule_eq, scheduleNext_append _ _ hpos (by omega)]
    rcases Nat.lt_or_ge t (w.length + n) with hold | hnew
    · rw [List.getD_append _ _ _ _ (by omega), ih hold]
    · have ht : (extendScheduleN n w).length = t := by omega
      rw [List.getD_append_right _ _ _ _ ht.le, ht, Nat.sub_self]
      rfl

theorem scheduleOf_getD_block (bs : List Byte) (idx : Nat) {t : Nat} (ht : t < 16) :
    (scheduleOf bs idx).getD t 0 = wordAt bs (64 * idx + 4 * t) := by
  rw [scheduleOf, extendScheduleN_getD 48 _ (by rwa [blockWordsOf_length]), blockWordsOf_getD bs idx ht]

theorem scheduleOf_getD_next (bs : List Byte) (idx : Nat) {t : Nat} (hlo : 16 ≤ t) (hhi : t < 64) :
    (scheduleOf bs idx).getD t 0 = scheduleNext (scheduleOf bs idx) t :=
  extendScheduleN_getD_next 48 _ (by omega) (by rwa [blockWordsOf_length]) (by rwa [blockWordsOf_length])

/-! ### EXPAND -/

/-- EXPAND after its padding step, with the schedule that the digest is defined by. -/
theorem State.expandWrites_eq_scheduleOf (h8 : s.bitLen % 8 = 0) {idx : Nat} (hidx : idx < s.blocks) :
    s.expandWrites idx = { s with
      w := scheduleOf (paddedMessage s.message) idx, schedIdx := BitVec.ofNat 24 idx } := by
  rw [State.expandWrites_eq, State.map_blockWord h8 hidx, scheduleOf]

theorem exec_expand_ok (d : Word) {t : State} {idx : Nat} (hf : s.fault = false) (he : s.ensurePad = .ok t)
    (hidx : idx < t.blkCount.toNat) : exec (.expand idx d) s = .next ((t.expandWrites idx).respond true 0) := by
  rw [exec_expand, he]
  simp only [Nat.not_le.mpr hidx, if_false]
  exact runCommand_ok _ _ _ hf

/-- Settles O41: the padding step succeeds, the expansion writes `scheduleOf`, and the clauses are the entries of that. -/
theorem expandBuildsSchedule : Obligations.ExpandBuildsSchedule := by
  unfold Obligations.ExpandBuildsSchedule
  intro idx d s hl hf h8 hidx
  refine ⟨scheduleOf (paddedMessage s.message) idx, scheduleOf_length .., fun t ht => scheduleOf_getD_block _ _ ht,
    fun t hlo hhi => ?_, rfl, ?_⟩
  · rw [← scheduleNext_eq]
    exact scheduleOf_getD_next _ _ hlo hhi
  · have hwrites := State.expandWrites_eq_scheduleOf (s := s.padWrites) h8 hidx
    rw [State.padWrites_message] at hwrites
    rw [exec_expand_ok d hf (State.ensurePad_legal hl h8) (by rwa [State.padWrites_blkCount_toNat]), hwrites]
    rfl

end Sys2Proof.Machine

/-! PROOF. The compression round pipeline: CLOAD and CFOLD (R204, R206). -/

namespace Sys2Proof.Machine

theorem decode_cload (d : Word) : decode ⟨0x30000000, d⟩ = .ok (.cload d) := by
  simp [decode, ifZero, bits]

theorem decode_cfold (d : Word) : decode ⟨0x32000000, d⟩ = .ok (.cfold d) := by
  simp [decode, ifZero, bits]

theorem addW8_get (u v : Words8) (j : Fin 8) : (addW8 u v).get j = addW (u.get j) (v.get j) := by
  fin_cases j <;> rfl

/-- Settles O42: each command answers with its register writes, and each element of `addW8` is one `addW`. -/
theorem cloadCfoldComplete : Obligations.CloadCfoldComplete := by
  unfold Obligations.CloadCfoldComplete
  intro d s hf
  refine ⟨decode_cload d, decode_cfold d, ?_, addW8 s.h s.v, fun j => ?_, ?_⟩
  · exact (exec_cload d s).trans (runCommand_ok _ s.cloadWrites 0 hf)
  · rw [addW8_get, addW_toNat]
  · exact (exec_cfold d s).trans (runCommand_ok _ s.cfoldWrites 0 hf)

end Sys2Proof.Machine

/-! PROOF. The top-level control: NOP and INIT (R221, R224); HASH as one update that depends on the message alone (R230, R233);
HASH against the manual sequences (R234), by runs of commands that all complete. -/

namespace Sys2Proof.Machine

/-! ### NOP and INIT -/

theorem decode_nop (d : Word) : decode ⟨0x00000000, d⟩ = .ok (.nop d) := by
  simp [decode, ifZero, bits]

theorem decode_init (d : Word) : decode ⟨0x03000000, d⟩ = .ok (.init d) := by
  simp [decode, ifZero, bits]

theorem exec_init_ok (d : Word) {s : State} (hf : s.fault = false) :
    exec (.init d) s = .next (s.initWrites.respond true 0) :=
  (exec_init d s).trans (runCommand_ok _ _ _ hf)

/-- Settles O45: the read-only skeleton answers a value in every state. -/
theorem nopOnlyAnswers : Obligations.NopOnlyAnswers := by
  unfold Obligations.NopOnlyAnswers
  intro d s
  exact ⟨decode_nop d, (exec_nop d s).trans (runReadOnly_ok _ s 0)⟩

/-- Settles O48: INIT answers with its register writes. -/
theorem initSetsHashState : Obligations.InitSetsHashState := by
  unfold Obligations.InitSetsHashState
  intro d s hf
  exact ⟨decode_init d, exec_init_ok d hf⟩

/-! ### HASH as one update -/

/-- The writes of one turn of HASH, with the values that it computes as arguments (R230). -/
def State.withBlock (s : State) (h v : Words8) (w : List Word) (idx : Nat) : State :=
  { s with h := h, v := v, w := w, schedIdx := BitVec.ofNat 24 idx, digestValid := false }

/-- The state after blocks 0 .. k of the message: the chain value after block k, with the working registers and the schedule of
block k. -/
def State.blocksDone (s : State) (k : Nat) : State :=
  s.withBlock (chain (paddedMessage s.message) (k + 1))
    (roundsFn 64 (chain (paddedMessage s.message) k) (scheduleOf (paddedMessage s.message) k))
    (scheduleOf (paddedMessage s.message) k) k

section WithBlock

variable (s : State) (h v : Words8) (w : List Word) (idx : Nat)

@[simp] theorem State.withBlock_h : (s.withBlock h v w idx).h = h := rfl
@[simp] theorem State.withBlock_v : (s.withBlock h v w idx).v = v := rfl
@[simp] theorem State.withBlock_w : (s.withBlock h v w idx).w = w := rfl
@[simp] theorem State.withBlock_schedIdx : (s.withBlock h v w idx).schedIdx = BitVec.ofNat 24 idx := rfl
@[simp] theorem State.withBlock_blkCount : (s.withBlock h v w idx).blkCount = s.blkCount := rfl
@[simp] theorem State.withBlock_message : (s.withBlock h v w idx).message = s.message := rfl
@[simp] theorem State.withBlock_bitLen : (s.withBlock h v w idx).bitLen = s.bitLen := rfl
@[simp] theorem State.withBlock_blocks : (s.withBlock h v w idx).blocks = s.blocks := rfl
@[simp] theorem State.withBlock_withBlock (h' v' : Words8) (w' : List Word) (idx' : Nat) :
    (s.withBlock h v w idx).withBlock h' v' w' idx' = s.withBlock h' v' w' idx' := rfl

end WithBlock

section Hash

variable {s : State}

/-- One turn of HASH on a block of the message, with the schedule that the digest is defined by. -/
theorem State.hashBlock_eq_withBlock (h8 : s.bitLen % 8 = 0) {idx : Nat} (hidx : idx < s.blocks) :
    s.hashBlock idx = s.withBlock (compressFn s.h (scheduleOf (paddedMessage s.message) idx))
      (roundsFn 64 s.h (scheduleOf (paddedMessage s.message) idx)) (scheduleOf (paddedMessage s.message) idx) idx := by
  rw [State.hashBlock_eq, State.map_blockWord h8 hidx, ← scheduleOf, State.withBlock]

/-- The turns of HASH follow the chain of the message (R208). -/
theorem State.foldl_hashBlock (h8 : s.bitLen % 8 = 0) (hinit : s.h = HINIT) {k : Nat} (hk : k < s.blocks) :
    (List.range (k + 1)).foldl State.hashBlock s = s.blocksDone k := by
  induction k with
  | zero =>
    rw [List.range_one, List.foldl_cons, List.foldl_nil, State.hashBlock_eq_withBlock h8 hk, State.blocksDone, chain_succ,
      chain_zero, hinit]
  | succ k ih =>
    rw [List.range_succ, List.foldl_append, ih (by omega), List.foldl_cons, List.foldl_nil, State.blocksDone,
      State.hashBlock_eq_withBlock (by rwa [State.withBlock_bitLen]) (by rwa [State.withBlock_blocks]), State.withBlock_h,
      State.withBlock_message, State.withBlock_withBlock, ← chain_succ, State.blocksDone]

/-- The state that HASH and both manual sequences process the blocks from: INIT, then the padding step (R230, R234). -/
def State.hashReady (s : State) : State := s.initWrites.padWrites

@[simp] theorem State.hashReady_blkCount : s.hashReady.blkCount = BitVec.ofNat 32 s.blocks := rfl
@[simp] theorem State.hashReady_message : s.hashReady.message = s.message := rfl

/-- All the blocks of the message (R230 step 3). -/
theorem State.foldl_hashBlock_hashReady (h8 : s.bitLen % 8 = 0) :
    (List.range s.blocks).foldl State.hashBlock s.hashReady = s.hashReady.blocksDone (s.blocks - 1) := by
  have hfold := State.foldl_hashBlock (s := s.hashReady) h8 rfl (Nat.sub_lt s.blocks_pos Nat.one_pos)
  rwa [Nat.sub_add_cancel s.hashReady.blocks_pos] at hfold

theorem State.Legal.initWrites (hl : s.Legal) : s.initWrites.Legal := { hl with }

theorem State.Legal.respond_true (hl : s.Legal) (r : Word) : (s.respond true r).Legal :=
  { hl with response := by simp }

/-- HASH sets `DIGEST_VALID` after the last block, and nothing else (R230 step 4). -/
theorem exec_hash_ok (d : Word) (hl : s.Legal) (hf : s.fault = false) (h8 : s.bitLen % 8 = 0) :
    exec (.hash d) s =
      .next (State.respond { s.hashReady.blocksDone (s.blocks - 1) with digestValid := true } true 0) := by
  have hcount : s.hashReady.blkCount.toNat = s.blocks := s.initWrites.padWrites_blkCount_toNat
  have hblocks : s.hashReady.hashBlocks = { s.hashReady.blocksDone (s.blocks - 1) with digestValid := true } := by
    rw [State.hashBlocks, hcount, State.foldl_hashBlock_hashReady h8]
  rw [exec_hash, State.ensurePad_legal hl.initWrites h8, ← hblocks]
  exact runCommand_ok _ _ _ hf

end Hash

theorem State.message_eq_of_bytes {s t : State} (hl : s.msgBitlen = t.msgBitlen)
    (hbytes : ∀ a, a < s.byteLen → s.msgByte a = t.msgByte a) : s.message = t.message := by
  have hlength : s.byteLen = t.byteLen := by
    rw [State.byteLen, State.byteLen, State.bitLen, State.bitLen, hl]
  rw [State.message, State.message, ← hlength]
  exact List.map_congr_left fun a ha => hbytes a (List.mem_range.mp ha)

/-- Settles O51: HASH leaves functions of the message and of the block count, and those agree. -/
theorem hashDependsOnlyOnMessage : Obligations.HashDependsOnlyOnMessage := by
  unfold Obligations.HashDependsOnlyOnMessage
  intro d d' s s' hl hl' hf hf' h8 hlen hbytes
  have h8' : s'.bitLen % 8 = 0 := by rwa [State.bitLen, ← hlen]
  have hmessage : s.message = s'.message := State.message_eq_of_bytes hlen hbytes
  have hblocks : s.blocks = s'.blocks := State.blocks_congr hlen
  refine ⟨_, _, exec_hash_ok d hl hf h8, exec_hash_ok d' hl' hf' h8', ?_⟩
  simp [State.blocksDone, hmessage, hblocks]

/-! ### Runs of commands that all complete -/

/-- The commands take s to t, each of them completing with (1, 0); s and t stand for the states with that response on the port. -/
inductive RunsTo : List Instr → State → State → Prop where
  | nil (s : State) : RunsTo [] s s
  | cons {i : Instr} {is : List Instr} {s t u : State} (head : exec i (s.respond true 0) = .next (t.respond true 0))
      (tail : RunsTo is t u) : RunsTo (i :: is) s u

theorem runCommands_cons {i : Instr} {s t : State} (is : List Instr) (h : exec i s = .next t) :
    runCommands (i :: is) s = ((runCommands is t).1, t.rsp :: (runCommands is t).2) := by
  simp only [runCommands, h]

namespace RunsTo

variable {is js : List Instr} {s t u : State}

theorem runCommands_eq (h : RunsTo is s t) :
    runCommands is (s.respond true 0) = (t.respond true 0, List.replicate is.length (some ⟨true, 0⟩)) := by
  induction h with
  | nil s => rfl
  | cons head tail ih =>
    rw [runCommands_cons _ head, ih]
    rfl

theorem append (hst : RunsTo is s t) (htu : RunsTo js t u) : RunsTo (is ++ js) s u := by
  induction hst with
  | nil s => exact htu
  | cons head tail ih => exact .cons head (ih htu)

/-- A loop of runs, each of which needs P and keeps it. -/
theorem flatMap {P : State → Prop} {g : Nat → List Instr} {f : State → Nat → State} {ks : List Nat}
    (hturn : ∀ k ∈ ks, ∀ s, P s → RunsTo (g k) s (f s k) ∧ P (f s k)) (hs : P s) :
    RunsTo (ks.flatMap g) s (ks.foldl f s) := by
  induction ks generalizing s with
  | nil => exact .nil s
  | cons k ks ih =>
    obtain ⟨hrun, hkeep⟩ := hturn k List.mem_cons_self s hs
    exact hrun.append (ih (fun j hj => hturn j (List.mem_cons_of_mem k hj)) hkeep)

theorem single {i : Instr} (h : exec i (s.respond true 0) = .next (t.respond true 0)) : RunsTo [i] s t :=
  .cons h (.nil t)

end RunsTo

/-! ### The commands of a block -/

/-- A running core whose padding step has found n blocks. -/
structure State.Padded (n : Nat) (s : State) : Prop where
  fault : s.fault = false
  memo : s.padValid = true
  count : s.blkCount.toNat = n

section Block

variable {s : State} {n idx : Nat}

theorem State.Padded.of_writesOnly {t : State} {cs : List Column} (hp : s.Padded n) (hw : s.WritesOnly cs t)
    (hpad : Column.pad ∉ cs) : t.Padded n := by
  obtain ⟨hmemo, hcount⟩ : t.padValid = s.padValid ∧ t.blkCount = s.blkCount := hw.blank .pad hpad
  exact ⟨hw.fault.trans hp.fault, hmemo.trans hp.memo, hcount ▸ hp.count⟩

theorem State.Padded.respond (hp : s.Padded n) (ok : Bool) (r : Word) : (s.respond ok r).Padded n :=
  hp.of_writesOnly (s.respond_writesOnly ok r) List.not_mem_nil

theorem State.Padded.hashBlock (hp : s.Padded n) (idx : Nat) : (s.hashBlock idx).Padded n :=
  hp.of_writesOnly (s.hashBlock_writesOnly idx) (by decide)

theorem exec_wload_ok (d : Word) {t : State} (hf : s.fault = false) (he : s.ensurePad = .ok t)
    (hidx : idx < t.blkCount.toNat) : exec (.wload idx d) s = .next ((t.wloadWrites idx).respond true 0) := by
  rw [exec_wload, he]
  simp only [Nat.not_le.mpr hidx, if_false]
  exact runCommand_ok _ _ _ hf

theorem exec_wstep_ok (d : Word) (hf : s.fault = false) (hfill : 16 ≤ s.schedFill) :
    exec (.wstep s.schedFill d) s = .next ((s.wstepWrites s.schedFill).respond true 0) := by
  rw [exec_wstep, if_neg (Nat.not_lt.mpr hfill), if_neg (not_not.mpr rfl)]
  exact runCommand_ok _ _ _ hf

theorem exec_round_ok (d : Word) {i : Nat} (hf : s.fault = false) (hi : i < s.schedFill) :
    exec (.round i d) s = .next ((s.roundWrites i).respond true 0) := by
  rw [exec_round, if_neg (Nat.not_le.mpr hi)]
  exact runCommand_ok _ _ _ hf

theorem exec_compress_ok (d : Word) (hf : s.fault = false) (hfill : s.schedFill = 64) :
    exec (.compress d) s = .next (s.compressWrites.respond true 0) := by
  rw [exec_compress, if_neg (not_not.mpr hfill)]
  exact runCommand_ok _ _ _ hf

namespace RunsTo

theorem expand (hp : s.Padded n) (hidx : idx < n) : RunsTo [.expand idx 0] s (s.expandWrites idx) := by
  have hp' := hp.respond true 0
  refine single ((exec_expand_ok 0 hp'.fault (State.ensurePad_of_memo hp'.memo) (hidx.trans_eq hp'.count.symm)).trans ?_)
  rw [State.expandWrites_eq, State.expandWrites_eq]
  rfl

theorem compress (hf : s.fault = false) (hfill : s.schedFill = 64) : RunsTo [.compress 0] s s.compressWrites := by
  refine single ((exec_compress_ok (s := s.respond true 0) 0 hf hfill).trans ?_)
  rw [State.compressWrites_eq, State.compressWrites_eq]
  rfl

theorem wload (hp : s.Padded n) (hidx : idx < n) : RunsTo [.wload idx 0] s (s.wloadWrites idx) := by
  have hp' := hp.respond true 0
  exact single (exec_wload_ok (t := s.respond true 0) 0 hp'.fault (State.ensurePad_of_memo hp'.memo)
    (hidx.trans_eq hp'.count.symm))

theorem wstep (hf : s.fault = false) (hfill : 16 ≤ s.schedFill) :
    RunsTo [.wstep s.schedFill 0] s (s.wstepWrites s.schedFill) :=
  single (exec_wstep_ok (s := s.respond true 0) 0 hf hfill)

theorem cload (hf : s.fault = false) : RunsTo [.cload 0] s s.cloadWrites :=
  single (runCommand_ok (.cload 0) (s.respond true 0).cloadWrites 0 hf)

theorem round {i : Nat} (hf : s.fault = false) (hi : i < s.schedFill) : RunsTo [.round i 0] s (s.roundWrites i) :=
  single (exec_round_ok (s := s.respond true 0) 0 hf hi)

theorem cfold (hf : s.fault = false) : RunsTo [.cfold 0] s s.cfoldWrites :=
  single (runCommand_ok (.cfold 0) (s.respond true 0).cfoldWrites 0 hf)

/-- WSTEP for the next m entries, one after another. -/
theorem wsteps (m : Nat) (hf : s.fault = false) (hfill : 16 ≤ s.schedFill) :
    RunsTo ((List.range' s.schedFill m).map (fun t => .wstep t 0)) s
      ((List.range' s.schedFill m).foldl State.wstepWrites s) := by
  induction m generalizing s with
  | zero => exact .nil s
  | succ m ih =>
    have hnext : (s.wstepWrites s.schedFill).schedFill = s.schedFill + 1 := by simp [State.schedFill]
    have htail := ih (s := s.wstepWrites s.schedFill) hf (by omega)
    rw [hnext] at htail
    exact (wstep hf hfill).append htail

/-- ROUND for any entries that are valid, one after another. -/
theorem rounds {ks : List Nat} (hf : s.fault = false) (hfill : ∀ k ∈ ks, k < s.schedFill) :
    RunsTo (ks.map (fun i => .round i 0)) s (ks.foldl State.roundWrites s) := by
  induction ks generalizing s with
  | nil => exact .nil s
  | cons k ks ih =>
    exact (round hf (hfill k List.mem_cons_self)).append
      (ih (s := s.roundWrites k) hf fun j hj => hfill j (List.mem_cons_of_mem k hj))

end RunsTo

theorem State.expandWrites_fault (idx : Nat) : (s.expandWrites idx).fault = s.fault :=
  (s.expandWrites_writesOnly idx).fault

theorem State.expandWrites_schedFill (idx : Nat) : (s.expandWrites idx).schedFill = 64 := by
  rw [State.expandWrites_eq, State.schedFill, extendScheduleN_length, List.length_map, List.length_range]

theorem State.roundAllWrites_fault : s.roundAllWrites.fault = s.fault :=
  (State.WritesOnly.foldl State.roundWrites_writesOnly _ s).fault

namespace RunsTo

/-- The commands that COMPRESS is made of (R207). -/
theorem compressCommands (hf : s.fault = false) (hfill : s.schedFill = 64) :
    RunsTo (.cload 0 :: ((List.range 64).map (fun i => .round i 0) ++ [.cfold 0])) s s.compressWrites :=
  have hrounds : RunsTo ((List.range 64).map (fun i => .round i 0)) s.cloadWrites s.cloadWrites.roundAllWrites :=
    rounds hf fun _ hk => (List.mem_range.mp hk).trans_eq hfill.symm
  (cload hf).append (hrounds.append (cfold (State.roundAllWrites_fault.trans hf)))

/-- The commands that EXPAND is made of, when the padding is known (R186). -/
theorem expandCommands (hp : s.Padded n) (hidx : idx < n) :
    RunsTo (.wload idx 0 :: (List.range' 16 48).map (fun t => .wstep t 0)) s (s.expandWrites idx) := by
  have hfill : (s.wloadWrites idx).schedFill = 16 := by simp [State.schedFill]
  have hsteps := wsteps (s := s.wloadWrites idx) 48 hp.fault hfill.ge
  rw [hfill] at hsteps
  exact (wload hp hidx).append hsteps

/-- EXPAND and COMPRESS make one turn of HASH (R234). -/
theorem compositeCommands (hp : s.Padded n) (hidx : idx < n) : RunsTo [.expand idx 0, .compress 0] s (s.hashBlock idx) :=
  (expand hp hidx).append (compress ((State.expandWrites_fault idx).trans hp.fault) (State.expandWrites_schedFill idx))

/-- The primitive commands of a block make one turn of HASH (R234). -/
theorem primitiveCommands (hp : s.Padded n) (hidx : idx < n) : RunsTo (primitiveBlock idx) s (s.hashBlock idx) :=
  (expandCommands hp hidx).append
    (compressCommands ((State.expandWrites_fault idx).trans hp.fault) (State.expandWrites_schedFill idx))

end RunsTo

end Block

/-! ### The manual sequences -/

section Manual

variable {s : State}

theorem State.hashReady_padded (hf : s.fault = false) : s.hashReady.Padded s.blocks :=
  ⟨hf, rfl, s.initWrites.padWrites_blkCount_toNat⟩

/-- Commands that make one turn of HASH, for each block of the message, make all of step 3 (R230). -/
theorem RunsTo.blocks {g : Nat → List Instr} (hf : s.fault = false) (h8 : s.bitLen % 8 = 0)
    (hturn : ∀ idx, idx < s.blocks → ∀ t : State, t.Padded s.blocks → RunsTo (g idx) t (t.hashBlock idx)) :
    RunsTo ((List.range s.blocks).flatMap g) s.hashReady (s.hashReady.blocksDone (s.blocks - 1)) := by
  rw [← State.foldl_hashBlock_hashReady h8]
  exact .flatMap (fun idx hidx t ht => ⟨hturn idx (List.mem_range.mp hidx) t ht, ht.hashBlock idx⟩)
    (State.hashReady_padded hf)

/-- INIT and PAD in front of a run. -/
theorem runCommands_init_pad {is : List Instr} {t : State} (hl : s.Legal) (hf : s.fault = false) (h8 : s.bitLen % 8 = 0)
    (h : RunsTo is s.hashReady t) : runCommands (.init 0 :: .pad 0 :: is) s =
      (t.respond true 0, List.replicate (is.length + 2) (some ⟨true, 0⟩)) := by
  have hpad : RunsTo [.pad 0] s.initWrites s.hashReady :=
    .single (exec_pad_ok (t := (s.initWrites.respond true 0).padWrites) 0 hf
      (State.ensurePad_legal (hl.initWrites.respond_true 0) h8))
  have hrun : runCommands (.pad 0 :: is) (s.initWrites.respond true 0) = _ := (hpad.append h).runCommands_eq
  rw [runCommands_cons _ (exec_init_ok 0 hf), hrun]
  rfl

end Manual

/-- Settles O50: both sequences make the turns of HASH, command by command, and stop before it sets `DIGEST_VALID`. -/
theorem hashEqualsManualSequence : Obligations.HashEqualsManualSequence := by
  unfold Obligations.HashEqualsManualSequence
  intro d s hl hf h8
  have hmanual := runCommands_init_pad hl hf h8 (RunsTo.blocks hf h8 fun _ hidx _ ht => RunsTo.compositeCommands ht hidx)
  have hprimitive := runCommands_init_pad hl hf h8 (RunsTo.blocks hf h8 fun _ hidx _ ht => RunsTo.primitiveCommands ht hidx)
  rw [manualSequence, manualBlocks, primitiveSequence, hmanual, hprimitive]
  exact ⟨_, exec_hash_ok d hl hf h8, rfl, rfl, rfl, fun _ => List.eq_of_mem_replicate, fun _ => List.eq_of_mem_replicate⟩

end Sys2Proof.Machine

/-! PROOF. Faults (R250 to R260): the operand values that fault, the fault that each command's effect comes to, what a core that
runs and a halted core make of it, and the matrix of which command can raise which fault. -/

namespace Sys2Proof.Machine

/-! ### Operand values that fault -/

/-- The mapped addresses are those that name a register (R36). -/
theorem regAt_isSome_iff (r8 : Nat) : (regAt r8).isSome = true ↔ mapped r8 := by
  simp [regAt, apply_ite Option.isSome, apply_dite Option.isSome]
  omega

/-- What RDREG reads (R222), with the causes of its faults as R256 orders them. -/
theorem State.readReg_eq (s : State) (r8 : Nat) : s.readReg r8 =
    if ¬ mapped r8 then .error .illegalOperand
    else if s.unreadable r8 then .error .scheduleContract
    else .ok (((regAt r8).map s.regValue).getD 0) := by
  by_cases hm : mapped r8
  · obtain ⟨r, hr⟩ := Option.isSome_iff_exists.1 ((regAt_isSome_iff r8).2 hm)
    rw [State.readReg, hr, if_neg (not_not.2 hm)]
    rfl
  · have hr : regAt r8 = none := Option.not_isSome_iff_eq_none.1 (mt (regAt_isSome_iff r8).1 hm)
    rw [State.readReg, hr, if_pos hm]

/-- The integer operand of WLDI is no Word exactly when hi8 ≠ 0 (R122, R138). -/
theorem wordFromInt_wldiOperand_eq_none_iff (hi8 : Nat) (d : Word) :
    wordFromInt (wldiOperand hi8 d) = none ↔ hi8 ≠ 0 := by
  have hd : d.toNat < 2 ^ 32 := d.isLt
  rw [wordFromInt, wldiOperand, ite_eq_right_iff]
  simp only [reduceCtorEq, imp_false]
  omega

theorem wordFromBytes_eq_none_iff (bs : List Byte) : wordFromBytes bs = none ↔ bs.length ≠ 4 := by
  constructor
  · intro hnone hlen
    obtain ⟨b0, b1, b2, b3, rfl⟩ := List.length_eq_four.1 hlen
    cases hnone
  · intro hlen
    unfold wordFromBytes
    split
    · exact absurd rfl hlen
    · rfl

/-- The byte list of WLDB is no Word exactly when it has not four bytes (R123, R139). -/
theorem wordFromBytes_wldbOperand_eq_none_iff (nb3 : Nat) (d : Word) :
    wordFromBytes (wldbOperand nb3 d) = none ↔ nb3 ≠ 4 := by
  rw [wordFromBytes_eq_none_iff, wldbOperand, List.length_map, List.length_range]

/-! ### The fault of an effect -/

/-- The fault that an effect comes to, none when it completes (R256). -/
def raised {α : Type} : Except FaultKind α → Option FaultKind
  | .ok _ => none
  | .error f => some f

theorem raised_eq_none_iff {α : Type} {e : Except FaultKind α} : raised e = none ↔ ∃ a, e = .ok a := by
  cases e <;> simp [raised]

theorem raised_eq_some_iff {α : Type} {e : Except FaultKind α} {f : FaultKind} : raised e = some f ↔ e = .error f := by
  cases e <;> simp [raised]

/-- A check in front of an effect. -/
theorem raised_guard {α : Type} {c : Prop} [Decidable c] (f : FaultKind) (e : Except FaultKind α) :
    raised (if c then .error f else e) = if c then some f else raised e :=
  apply_ite raised c _ _

/-- An effect that the padding step goes before (R169). -/
theorem raised_afterPad {s : State} {k : State → Effect} {o : Option FaultKind}
    (hk : ∀ t : State, t.blkCount.toNat = s.countAfterPad → raised (k t) = o) :
    raised (match s.ensurePad with | .error f => .error f | .ok t => k t) =
      if s.padFails then some .paddingAlignment else o := by
  rcases s.ensurePad_cases with ⟨hp, he⟩ | ⟨hp, h8, he⟩ | ⟨hp, h8, he⟩
  · rw [he, if_neg (by simp [hp])]
    exact hk s (by simp [State.countAfterPad, hp])
  · rw [he, if_pos ⟨hp, h8⟩]
    rfl
  · rw [he, if_neg (by simp [h8])]
    exact hk s.padWrites (by rw [State.padWrites_blkCount_toNat, State.countAfterPad, hp]; rfl)

/-- An effect on an operand that must be a Word (R251). -/
theorem raised_operand {x : Option Word} {c : Prop} [Decidable c] {f : FaultKind} {k : Word → State × Word}
    (hx : x = none ↔ c) :
    raised (match x with | none => .error f | some r => .ok (k r)) = if c then some f else none := by
  rw [if_congr hx.symm rfl rfl]
  cases x <;> rfl

/-- The effect of a shift, which checks its amount (R141, R142). -/
theorem raised_amount {n : Nat} {f : FaultKind} {k : n ≤ 32 → State × Word} :
    raised (if h : n ≤ 32 then .ok (k h) else .error f) = if 32 < n then some f else none := by
  rw [if_congr Nat.not_le.symm rfl rfl, ite_not]
  exact apply_dite raised _ _ _

theorem raised_readReg (s : State) (r8 : Nat) (d : Word) : raised (s.readReg r8) = s.faultOf (.rdreg r8 d) := by
  rw [State.readReg_eq, raised_guard, raised_guard]
  rfl

/-- Every command but the two that a halted core answers runs an effect that comes to the fault of the command's rule. -/
theorem exec_runs_effect_of_faultOf (i : Instr) (s : State) :
    (∃ d, i = .nop d) ∨ (∃ r8 d, i = .rdreg r8 d) ∨
    (∃ e, exec i s = runCommand i s e ∧ raised e = s.faultOf i) := by
  cases i with
  | nop d => exact .inl ⟨d, rfl⟩
  | rdreg r8 d => exact .inr (.inl ⟨r8, d, rfl⟩)
  | wrreg r8 d =>
    refine .inr (.inr ⟨_, exec_wrreg .., ?_⟩)
    rw [raised_guard, raised_guard, State.faultOf, ite_or]
    rfl
  | hash d => exact .inr (.inr ⟨_, exec_hash .., raised_afterPad (s := s.initWrites) fun _ _ => rfl⟩)
  | msgwr a d => exact .inr (.inr ⟨_, exec_msgwr .., raised_guard ..⟩)
  | msgrd a d => exact .inr (.inr ⟨_, exec_msgrd .., raised_guard ..⟩)
  | pad d => exact .inr (.inr ⟨_, exec_pad .., raised_afterPad fun _ _ => rfl⟩)
  | padrd a d => exact .inr (.inr ⟨_, exec_padrd .., raised_afterPad fun _ ht => ht ▸ raised_guard ..⟩)
  | wload a d => exact .inr (.inr ⟨_, exec_wload .., raised_afterPad fun _ ht => ht ▸ raised_guard ..⟩)
  | wstep n d =>
    refine .inr (.inr ⟨_, exec_wstep .., ?_⟩)
    rw [raised_guard, raised_guard]
    rfl
  | expand a d => exact .inr (.inr ⟨_, exec_expand .., raised_afterPad fun _ ht => ht ▸ raised_guard ..⟩)
  | round n d => exact .inr (.inr ⟨_, exec_round .., raised_guard ..⟩)
  | compress d => exact .inr (.inr ⟨_, exec_compress .., raised_guard ..⟩)
  | wldi rd hi8 d =>
    exact .inr (.inr ⟨_, exec_wldi .., raised_operand (wordFromInt_wldiOperand_eq_none_iff hi8 d)⟩)
  | wldb rd nb3 d =>
    exact .inr (.inr ⟨_, exec_wldb .., raised_operand (wordFromBytes_wldbOperand_eq_none_iff nb3 d)⟩)
  | shr rd ra n d => exact .inr (.inr ⟨_, exec_shr .., raised_amount⟩)
  | rotr rd ra n d => exact .inr (.inr ⟨_, exec_rotr .., raised_amount⟩)
  | init | cload | cfold | add | xor | ch | maj | sigma0 | sigma1 | usigma0 | usigma1 | weq =>
    exact .inr (.inr ⟨.ok (_, _), rfl, rfl⟩)

/-! ### A core that runs -/

section Running

variable {i : Instr} {s : State} (hf : s.fault = false)
include hf

/-- A command that faults is the fault entry and nothing else (R254). -/
theorem exec_of_faultOf_some {f : FaultKind} (hi : s.faultOf i = some f) :
    exec i s = .next (s.raise f (encode i)) := by
  rcases exec_runs_effect_of_faultOf i s with ⟨d, rfl⟩ | ⟨r8, d, rfl⟩ | ⟨e, hexec, he⟩
  · cases hi
  · rw [exec_rdreg, raised_eq_some_iff.1 ((raised_readReg s r8 d).trans hi), runReadOnly_error _ _ hf]
  · rw [hexec, raised_eq_some_iff.1 (he.trans hi), runCommand_error _ _ hf]

/-- Only the fault entry halts the core (R30). -/
theorem exec_halts {t : State} (h : exec i s = .next t) (ht : t.fault = true) : ∃ f, t = s.raise f (encode i) := by
  obtain ⟨e, he⟩ | ⟨e, he, hw⟩ := exec_runs_effect_of_row i s
  · rcases runReadOnly_cases (he ▸ h) with ⟨r, _, rfl⟩ | ⟨hs, _⟩ | ⟨_, f, _, rfl⟩
    · exact absurd (hf.symm.trans ht) Bool.false_ne_true
    · exact absurd (hf.symm.trans hs) Bool.false_ne_true
    · exact ⟨f, rfl⟩
  · rcases runCommand_cases (he ▸ h) with ⟨hs, _⟩ | ⟨_, u, r, hu, rfl⟩ | ⟨_, f, _, rfl⟩
    · exact absurd (hf.symm.trans hs) Bool.false_ne_true
    · exact absurd ((hw u r hu).fault.symm.trans ht) (by simp [hf])
    · exact ⟨f, rfl⟩

/-- A command whose rule raises no fault completes, and the core goes on running (R240). -/
theorem exec_of_faultOf_none (hi : s.faultOf i = none) :
    ∃ t r, exec i s = .next t ∧ t.rsp = some ⟨true, r⟩ ∧ t.fault = false := by
  have hanswers : ∃ u r, exec i s = .next (State.respond u true r) := by
    rcases exec_runs_effect_of_faultOf i s with ⟨d, rfl⟩ | ⟨r8, d, rfl⟩ | ⟨e, hexec, he⟩
    · exact ⟨s, 0, rfl⟩
    · obtain ⟨r, hr⟩ := raised_eq_none_iff.1 ((raised_readReg s r8 d).trans hi)
      exact ⟨s, r, by rw [exec_rdreg, hr, runReadOnly_ok]⟩
    · obtain ⟨⟨u, r⟩, rfl⟩ := raised_eq_none_iff.1 (he.trans hi)
      exact ⟨u, r, hexec.trans (runCommand_ok _ _ _ hf)⟩
  obtain ⟨u, r, hu⟩ := hanswers
  refine ⟨_, r, hu, rfl, Bool.eq_false_iff.2 fun ht => ?_⟩
  obtain ⟨f, hraise⟩ := exec_halts hf hu ht
  cases congrArg State.rsp hraise

/-- The fault that halts a core is the one the command's rule gives. -/
theorem exists_faultOf_of_halts {t : State} (h : exec i s = .next t) (ht : t.fault = true) :
    ∃ f, s.faultOf i = some f ∧ t.err = f.code := by
  cases hi : s.faultOf i with
  | none =>
    obtain ⟨u, r, hu, _, hrun⟩ := exec_of_faultOf_none hf hi
    cases h.symm.trans hu
    exact absurd (hrun.symm.trans ht) Bool.false_ne_true
  | some f =>
    cases h.symm.trans (exec_of_faultOf_some hf hi)
    exact ⟨f, rfl, rfl⟩

end Running

/-- Settles O16: the fault of the rule is the fault the effect comes to, and the fault entry discards everything else. -/
theorem faultEntryIsPrecise : Obligations.FaultEntryIsPrecise := by
  unfold Obligations.FaultEntryIsPrecise
  refine ⟨fun i s f hf hi => exec_of_faultOf_some hf hi, ?_, fun s => rfl, rfl, rfl, rfl, rfl, rfl, rfl⟩
  intro s c e hf hd
  rw [State.accept_error hd, State.illegalWord, hf]
  rfl

/-! ### A halted core -/

/-- The words of RDREG, by the mask and match of its row (R95), and the address they carry. -/
theorem decode_rdreg_of_covers {c : Command} (h : c.cmd &&& 0xFFFFFF00 = 0x01000000) :
    decode c = .ok (.rdreg (bits c.cmd 7 0) c.wdata) := by
  obtain ⟨hop, hzero⟩ := (OpcodeRow.covers_iff (r := ⟨"RDREG", 0xFFFFFF00, 0x01000000⟩) (by decide) c.cmd).1 h
  have hmbz : bits c.cmd 23 8 = 0 := (and_rangeMask_eq_zero_iff c.cmd 23 8).1 hzero
  rw [decode, hop]
  exact if_pos hmbz

theorem covers_of_decode_rdreg {c : Command} {r8 : Nat} {d : Word} (h : decode c = .ok (.rdreg r8 d)) :
    c.cmd &&& 0xFFFFFF00 = 0x01000000 :=
  (OpcodeRow.covers_iff_decode (r := ⟨"RDREG", 0xFFFFFF00, 0x01000000⟩) (by decide) c).2
    ⟨_, h, rfl, encode_of_decode h⟩

theorem cmd_eq_zero_of_decode_nop {c : Command} {d : Word} (h : decode c = .ok (.nop d)) : c.cmd = 0x00000000 := by
  rw [← encode_of_decode h]
  simp [encode, Instr.opcode, Instr.imm24]

section Halted

variable {s : State}

/-- RDREG of an address that can be read answers, in a core that runs and in a halted one. -/
theorem exec_rdreg_readable {r8 : Nat} (d : Word) (h : mapped r8 ∧ ¬ s.unreadable r8) :
    exec (.rdreg r8 d) s = .next (s.respond true (((regAt r8).map s.regValue).getD 0)) := by
  obtain ⟨hm, hu⟩ := h
  rw [exec_rdreg, State.readReg_eq, if_neg (not_not.2 hm), if_neg hu, runReadOnly_ok]

variable (hf : s.fault = true)
include hf

theorem exec_rdreg_refused {r8 : Nat} (d : Word) (h : ¬ (mapped r8 ∧ ¬ s.unreadable r8)) :
    exec (.rdreg r8 d) s = .next s.refuse := by
  rw [exec_rdreg, State.readReg_eq]
  by_cases hm : mapped r8
  · rw [if_neg (not_not.2 hm), if_pos (not_and_not_right.1 h hm), runReadOnly_error_halted _ _ hf]
  · rw [if_pos hm, runReadOnly_error_halted _ _ hf]

/-- A word of neither NOP nor RDREG is refused, whether it is legal or not (R258). -/
theorem State.accept_refused {c : Command} (hnop : c.cmd ≠ 0x00000000)
    (hrdreg : c.cmd &&& 0xFFFFFF00 ≠ 0x01000000) : s.accept c = .next s.refuse := by
  cases hd : decode c with
  | error e => rw [State.accept_error hd, State.illegalWord, if_pos hf]
  | ok i =>
    rw [State.accept_ok hd]
    rcases exec_runs_effect_of_faultOf i s with ⟨d, rfl⟩ | ⟨r8, d, rfl⟩ | ⟨e, hexec, _⟩
    · exact absurd (cmd_eq_zero_of_decode_nop hd) hnop
    · exact absurd (covers_of_decode_rdreg hd) hrdreg
    · rw [hexec, runCommand_halted _ _ hf]

end Halted

/-- Settles O10: the three answers of R258, each an update of the response alone. -/
theorem haltedCoreAnswersOnlyReads : Obligations.HaltedCoreAnswersOnlyReads := by
  unfold Obligations.HaltedCoreAnswersOnlyReads
  rintro s ⟨cmd, d⟩ hf
  by_cases hnop : cmd = 0x00000000
  · subst hnop
    rw [State.accept_ok (decode_nop d)]
    rfl
  rw [if_neg hnop]
  by_cases hrdreg : cmd &&& 0xFFFFFF00 = 0x01000000
  · rw [State.accept_ok (decode_rdreg_of_covers hrdreg)]
    by_cases hread : mapped (bits cmd 7 0) ∧ ¬ s.unreadable (bits cmd 7 0)
    · rw [exec_rdreg_readable d hread, if_pos ⟨hrdreg, hread⟩]
      rfl
    · rw [exec_rdreg_refused hf d hread, if_neg fun h => hread h.2]
      rfl
  · rw [State.accept_refused hf hnop hrdreg, if_neg fun h => hrdreg h.1]
    rfl

/-! ### The matrix: nothing outside a row -/

/-- A command's rule gives only faults with the listed codes. -/
def FaultWithin (l : List (BitVec 4)) (o : Option FaultKind) : Prop := ∀ f, o = some f → f.code ∈ l

namespace FaultWithin

variable {l : List (BitVec 4)} {o : Option FaultKind}

theorem none : FaultWithin l none := by
  rintro f ⟨⟩

/-- A cause whose code is listed, before the causes that come after it (R256). -/
theorem cause {c : Prop} [Decidable c] {f : FaultKind} (h : FaultWithin l o)
    (hf : f.code ∈ l := by simp [FaultKind.code, canRaise]) : FaultWithin l (if c then some f else o) := by
  split
  · rintro _ ⟨⟩
    exact hf
  · exact h

end FaultWithin

theorem State.faultOf_within_canRaise (s : State) (i : Instr) : FaultWithin (canRaise i) (s.faultOf i) := by
  cases i with
  | nop | init | cload | cfold | add | xor | ch | maj | sigma0 | sigma1 | usigma0 | usigma1 | weq => exact .none
  | wrreg | hash | msgwr | msgrd | pad | round | compress | wldi | wldb | shr | rotr => exact .cause .none
  | rdreg | padrd | wload | wstep | expand => exact .cause (.cause .none)

/-! ### The matrix: every fault of a row can happen -/

theorem State.reset_legal : State.reset.Legal where
  cap := by decide
  memory := State.reset_memory_wf
  addresses := by rintro p ⟨⟩
  length := by decide
  padSet := by rintro ⟨⟩
  padClear _ := rfl
  fill := .inl rfl
  emptyIdx _ := rfl
  filledIdx h := absurd rfl h
  running _ := ⟨rfl, rfl, rfl⟩
  halted := by rintro ⟨⟩
  ready := rfl
  response := by rintro r ⟨⟩

/-- A length within the memory leaves a legal state (R25, R38). -/
theorem State.Legal.setBitlen {s : State} (hl : s.Legal) {d : Word} (hd : d.toNat ≤ 8 * s.msgCap) :
    (s.setBitlen d).Legal :=
  { hl with
    length := hd
    padSet := by rintro ⟨⟩
    padClear := fun _ => rfl
    fill := .inl rfl
    emptyIdx := fun _ => rfl
    filledIdx := fun h => absurd rfl h }

/-- A mark of R260: some well-formed command of the mnemonic raises the fault of the code in some legal state that runs. -/
def CanHappen (mnemonic : String) (k : BitVec 4) : Prop :=
  ∃ (j : Instr) (s t : State), j.mnemonic = mnemonic ∧ j.wellFormed = true ∧ s.Legal ∧ s.fault = false ∧
    exec j s = .next t ∧ t.fault = true ∧ t.err = k

namespace CanHappen

theorem of_faultOf {s : State} (j : Instr) {f : FaultKind} (hl : s.Legal) (hs : s.fault = false)
    (hw : j.wellFormed = true) (hj : s.faultOf j = some f) : CanHappen j.mnemonic f.code :=
  ⟨j, s, s.raise f (encode j), rfl, hw, hl, hs, exec_of_faultOf_some hs hj, rfl, rfl⟩

/-- After reset: no schedule, the empty message of one block, and 4096 bytes of memory (R42). -/
theorem atReset (j : Instr) (f : FaultKind) (hw : j.wellFormed = true := by rfl)
    (hj : State.reset.faultOf j = some f := by decide) : CanHappen j.mnemonic f.code :=
  of_faultOf j State.reset_legal rfl hw hj

/-- With a message of one bit, which cannot be padded (R252). -/
theorem atOneBit (j : Instr) (hw : j.wellFormed = true := by rfl)
    (hj : (State.reset.setBitlen 1).faultOf j = some .paddingAlignment := by decide) : CanHappen j.mnemonic 2 :=
  of_faultOf j (State.reset_legal.setBitlen (by decide)) rfl hw hj

end CanHappen

theorem forall_canRaise_canHappen (i : Instr) : ∀ k ∈ canRaise i, CanHappen i.mnemonic k := by
  cases i with
  | nop | init | cload | cfold | add | xor | ch | maj | sigma0 | sigma1 | usigma0 | usigma1 | weq => rintro k ⟨⟩
  | rdreg =>
    exact List.forall_mem_cons.2 ⟨.atReset (.rdreg 0x40 0) .scheduleContract,
      List.forall_mem_singleton.2 (.atReset (.rdreg 0xFF 0) .illegalOperand)⟩
  | wrreg => exact List.forall_mem_singleton.2 (.atReset (.wrreg 0 0) .illegalOperand)
  | hash => exact List.forall_mem_singleton.2 (.atOneBit (.hash 0))
  | msgwr => exact List.forall_mem_singleton.2 (.atReset (.msgwr 4096 0) .illegalOperand)
  | msgrd => exact List.forall_mem_singleton.2 (.atReset (.msgrd 4096 0) .illegalOperand)
  | pad => exact List.forall_mem_singleton.2 (.atOneBit (.pad 0))
  | padrd =>
    exact List.forall_mem_cons.2 ⟨.atOneBit (.padrd 0 0),
      List.forall_mem_singleton.2 (.atReset (.padrd 64 0) .illegalOperand)⟩
  | wload =>
    exact List.forall_mem_cons.2 ⟨.atOneBit (.wload 0 0),
      List.forall_mem_singleton.2 (.atReset (.wload 1 0) .indexOutOfRange)⟩
  | wstep =>
    exact List.forall_mem_cons.2 ⟨.atReset (.wstep 16 0) .scheduleContract,
      List.forall_mem_singleton.2 (.atReset (.wstep 15 0) .illegalOperand)⟩
  | expand =>
    exact List.forall_mem_cons.2 ⟨.atOneBit (.expand 0 0),
      List.forall_mem_singleton.2 (.atReset (.expand 1 0) .indexOutOfRange)⟩
  | round => exact List.forall_mem_singleton.2 (.atReset (.round 0 0) .scheduleContract)
  | compress => exact List.forall_mem_singleton.2 (.atReset (.compress 0) .scheduleContract)
  | wldi => exact List.forall_mem_singleton.2 (.atReset (.wldi 0 1 0) .invalidLength)
  | wldb => exact List.forall_mem_singleton.2 (.atReset (.wldb 0 3 0) .invalidLength)
  | shr => exact List.forall_mem_singleton.2 (.atReset (.shr 0 0 33 0) .illegalOperand)
  | rotr => exact List.forall_mem_singleton.2 (.atReset (.rotr 0 0 33 0) .illegalOperand)

/-- Settles O18: what halts a core is a fault of the command's rule, whose causes all stand in the row, and each mark of the row
has its command and its state. -/
theorem faultMatrixHolds : Obligations.FaultMatrixHolds := by
  unfold Obligations.FaultMatrixHolds
  refine ⟨?_, forall_canRaise_canHappen⟩
  intro i s t hf h ht
  obtain ⟨f, hi, herr⟩ := exists_faultOf_of_halts hf h ht
  rw [herr]
  exact s.faultOf_within_canRaise i f hi

end Sys2Proof.Machine

/-! PROOF. The decoder and the encoder are inverse to each other (R93, R94, R96, R100). -/

namespace Sys2Proof.Machine

/-! ### Decoding an encoded command -/

open Laws.WordCarriesOpcode in
/-- The decoder's line for a command: with its must-be-zero bits zero in the assembled word, it answers the command when the
fields read from that word are the command's. What is left to check of a command as it stands is the line and its fields. -/
theorem decode_encode_of_line {i : Instr} (hcarries : Statement i) (hw : i.wellFormed = true)
    (mbz : Word → Nat) (j : Word → Instr)
    (hline : ∀ v : Word, bits v 31 24 = i.opcode → decode ⟨v, i.wdata⟩ = ifZero (mbz v) (j v) := by
      intro v hop; rw [decode, hop]; rfl)
    (hfields : i.wellFormed = true → bits (encode i).cmd 23 0 = i.imm24 →
        mbz (encode i).cmd = 0 ∧ j (encode i).cmd = i := by
      simp [Instr.wellFormed, Instr.imm24, bits, xregField, Fin.ext_iff] <;> omega) :
    decode (encode i) = .ok i := by
  obtain ⟨hop, himm⟩ := hcarries hw
  obtain ⟨hmbz, hj⟩ := hfields hw himm
  calc decode (encode i)
    _ = ifZero (mbz (encode i).cmd) (j (encode i).cmd) := hline (encode i).cmd hop
    _ = .ok i := by rw [hmbz, hj]; rfl

open Laws.WordCarriesOpcode in
theorem decode_encode {i : Instr} (hw : i.wellFormed = true) : decode (encode i) = .ok i := by
  cases i with
  | nop d => exact decode_encode_of_line (nop d) hw (bits · 23 0) fun _ => .nop d
  | rdreg r8 d => exact decode_encode_of_line (rdreg r8 d) hw (bits · 23 8) fun v => .rdreg (bits v 7 0) d
  | wrreg r8 d => exact decode_encode_of_line (wrreg r8 d) hw (bits · 23 8) fun v => .wrreg (bits v 7 0) d
  | init d => exact decode_encode_of_line (init d) hw (bits · 23 0) fun _ => .init d
  | hash d => exact decode_encode_of_line (hash d) hw (bits · 23 0) fun _ => .hash d
  | msgwr a d => exact decode_encode_of_line (msgwr a d) hw (fun _ => 0) fun v => .msgwr (bits v 23 0) d
  | msgrd a d => exact decode_encode_of_line (msgrd a d) hw (fun _ => 0) fun v => .msgrd (bits v 23 0) d
  | pad d => exact decode_encode_of_line (pad d) hw (bits · 23 0) fun _ => .pad d
  | padrd a d => exact decode_encode_of_line (padrd a d) hw (fun _ => 0) fun v => .padrd (bits v 23 0) d
  | wload a d => exact decode_encode_of_line (wload a d) hw (fun _ => 0) fun v => .wload (bits v 23 0) d
  | wstep t d => exact decode_encode_of_line (wstep t d) hw (bits · 23 6) fun v => .wstep (bits v 5 0) d
  | expand a d => exact decode_encode_of_line (expand a d) hw (fun _ => 0) fun v => .expand (bits v 23 0) d
  | cload d => exact decode_encode_of_line (cload d) hw (bits · 23 0) fun _ => .cload d
  | round t d => exact decode_encode_of_line (round t d) hw (bits · 23 6) fun v => .round (bits v 5 0) d
  | cfold d => exact decode_encode_of_line (cfold d) hw (bits · 23 0) fun _ => .cfold d
  | compress d => exact decode_encode_of_line (compress d) hw (bits · 23 0) fun _ => .compress d
  | wldi rd hi8 d =>
    exact decode_encode_of_line (wldi rd hi8 d) hw (bits · 21 8) fun v => .wldi (xregField v 22) (bits v 7 0) d
  | wldb rd nb3 d =>
    exact decode_encode_of_line (wldb rd nb3 d) hw (bits · 21 3) fun v => .wldb (xregField v 22) (bits v 2 0) d
  | shr rd ra n d =>
    exact decode_encode_of_line (shr rd ra n d) hw (bits · 19 6)
      fun v => .shr (xregField v 22) (xregField v 20) (bits v 5 0) d
  | rotr rd ra n d =>
    exact decode_encode_of_line (rotr rd ra n d) hw (bits · 19 6)
      fun v => .rotr (xregField v 22) (xregField v 20) (bits v 5 0) d
  | add rd ra rb d =>
    exact decode_encode_of_line (add rd ra rb d) hw (bits · 17 0)
      fun v => .add (xregField v 22) (xregField v 20) (xregField v 18) d
  | xor rd ra rb d =>
    exact decode_encode_of_line (xor rd ra rb d) hw (bits · 17 0)
      fun v => .xor (xregField v 22) (xregField v 20) (xregField v 18) d
  | ch rd ra rb rc d =>
    exact decode_encode_of_line (ch rd ra rb rc d) hw (bits · 15 0)
      fun v => .ch (xregField v 22) (xregField v 20) (xregField v 18) (xregField v 16) d
  | maj rd ra rb rc d =>
    exact decode_encode_of_line (maj rd ra rb rc d) hw (bits · 15 0)
      fun v => .maj (xregField v 22) (xregField v 20) (xregField v 18) (xregField v 16) d
  | sigma0 rd ra d =>
    exact decode_encode_of_line (sigma0 rd ra d) hw (bits · 19 0) fun v => .sigma0 (xregField v 22) (xregField v 20) d
  | sigma1 rd ra d =>
    exact decode_encode_of_line (sigma1 rd ra d) hw (bits · 19 0) fun v => .sigma1 (xregField v 22) (xregField v 20) d
  | usigma0 rd ra d =>
    exact decode_encode_of_line (usigma0 rd ra d) hw (bits · 19 0) fun v => .usigma0 (xregField v 22) (xregField v 20) d
  | usigma1 rd ra d =>
    exact decode_encode_of_line (usigma1 rd ra d) hw (bits · 19 0) fun v => .usigma1 (xregField v 22) (xregField v 20) d
  | weq ra rb d =>
    exact decode_encode_of_line (weq ra rb d) hw (fun v => bits v 23 22 + bits v 17 0)
      fun v => .weq (xregField v 20) (xregField v 18) d

/-- Settles O2: the decoder's line for the opcode reads back each field of the assembled word. -/
theorem decodeOfEncodeIsIdentity : Obligations.DecodeOfEncodeIsIdentity := by
  unfold Obligations.DecodeOfEncodeIsIdentity
  exact fun i hw => decode_encode hw

/-! ### What the decoder answers is well formed -/

/-- Only well-formed commands are answered. -/
def AnswersWellFormed (e : Except Illegal Instr) : Prop := ∀ i, e = .ok i → i.wellFormed = true

namespace AnswersWellFormed

theorem ok {i : Instr} (hi : i.wellFormed = true := by simp [Instr.wellFormed, bits, Nat.mod_lt]) :
    AnswersWellFormed (.ok i) := by
  rintro _ ⟨⟩
  exact hi

theorem error (e : Illegal) : AnswersWellFormed (.error e) := by
  rintro _ ⟨⟩

theorem ite {c : Prop} [Decidable c] {a b : Except Illegal Instr} (ha : AnswersWellFormed a) (hb : AnswersWellFormed b) :
    AnswersWellFormed (if c then a else b) := by
  split
  · exact ha
  · exact hb

theorem ifZero {mbz : Nat} {i : Instr} (hi : i.wellFormed = true := by simp [Instr.wellFormed, bits, Nat.mod_lt]) :
    AnswersWellFormed (ifZero mbz i) :=
  .ite (.ok hi) (.error _)

end AnswersWellFormed

/-- Each line of the decoder reads its fields at the widths of R94, in the order of the opcodes. -/
theorem decode_answersWellFormed (c : Command) : AnswersWellFormed (decode c) :=
  -- core control
  .ite .ifZero <| .ite .ifZero <| .ite .ifZero <| .ite .ifZero <| .ite .ifZero <|
  -- message_padder
  .ite .ok <| .ite .ok <| .ite .ifZero <| .ite .ok <|
  -- schedule_expander
  .ite .ok <| .ite .ifZero <| .ite .ok <|
  -- compression_round_pipeline
  .ite .ifZero <| .ite .ifZero <| .ite .ifZero <| .ite .ifZero <|
  -- word_arithmetic_unit
  .ite .ifZero <| .ite .ifZero <| .ite .ifZero <| .ite .ifZero <| .ite .ifZero <| .ite .ifZero <| .ite .ifZero <|
  .ite .ifZero <| .ite .ifZero <| .ite .ifZero <| .ite .ifZero <| .ite .ifZero <| .ite .ifZero <| .error _

theorem wellFormed_of_decode {c : Command} {i : Instr} (hi : decode c = .ok i) : i.wellFormed = true :=
  decode_answersWellFormed c i hi

/-- Settles O3: each line of the decoder reads fields that fit, and the row that covers the word assembles to it again. -/
theorem encodeOfDecodeIsIdentity : Obligations.EncodeOfDecodeIsIdentity := by
  unfold Obligations.EncodeOfDecodeIsIdentity
  exact fun c i hi => ⟨wellFormed_of_decode hi, encode_of_decode hi⟩

/-- Settles O1: the decoder evaluates on each word. -/
theorem specWordsDecode : Obligations.SpecWordsDecode := by
  unfold Obligations.SpecWordsDecode
  exact ⟨rfl, rfl, rfl, rfl, rfl, rfl, rfl, rfl, rfl, rfl, rfl, rfl, rfl⟩

end Sys2Proof.Machine

/-! PROOF. One step (R90, R97, R240, R271, R290): which of its four kinds it is, what each leaves, and that none stops (R308). -/

namespace Sys2Proof.Machine

/-! ### The kinds of step -/

section Step

variable {s : State} {c : Command} {rest : List Event}

theorem step_of_no_event (h : s.pending = []) : step s = .next s.idleEdge := by
  simp only [step, h]

theorem step_of_reset (h : s.pending = .reset :: rest) : step s = .next (State.afterReset { s with pending := rest }) := by
  simp only [step, h]

theorem step_of_busy (h : s.pending = .command c :: rest) (hb : s.busy = true) : step s = .next s.idleEdge := by
  simp only [step, h, hb, if_true]

theorem step_of_command (h : s.pending = .command c :: rest) (hb : s.busy = false) :
    step s = State.accept { s with pending := rest } c := by
  simp only [step, h, hb, Bool.false_eq_true, if_false]

/-- Everything a step can be. -/
theorem step_cases (s : State) :
    step s = .next s.idleEdge ∨
    (∃ rest, s.pending = .reset :: rest ∧ step s = .next (State.afterReset { s with pending := rest })) ∨
    (∃ c rest, s.pending = .command c :: rest ∧ step s = State.accept { s with pending := rest } c) := by
  cases h : s.pending with
  | nil => exact .inl (step_of_no_event h)
  | cons e rest =>
    cases e with
    | reset => exact .inr (.inl ⟨rest, rfl, step_of_reset h⟩)
    | command c =>
      cases hb : s.busy with
      | true => exact .inl (step_of_busy h hb)
      | false => exact .inr (.inr ⟨c, rest, rfl, step_of_command h hb⟩)

theorem State.busy_eq_false_of_ready (h : s.seq = Seq.ready) : s.busy = false := by
  simp [State.busy, h, Seq.ready]

end Step

/-! ### No step stops -/

/-- Each command is one of the two skeletons, and neither stops. -/
theorem exec_next (i : Instr) (s : State) : ∃ t, exec i s = .next t := by
  obtain ⟨e, he⟩ | ⟨e, he, _⟩ := exec_runs_effect_of_row i s
  · exact he ▸ runReadOnly_next i s e
  · exact he ▸ runCommand_next i s e

theorem State.accept_next (s : State) (c : Command) : ∃ t, s.accept c = .next t := by
  cases hd : decode c with
  | ok i => exact State.accept_ok hd ▸ exec_next i s
  | error e =>
    rw [State.accept_error hd, State.illegalWord]
    split
    · exact ⟨_, rfl⟩
    · exact ⟨_, rfl⟩

/-- Settles O9: an idle edge and a reset go on by definition, and an accepted word by the skeletons. -/
theorem noStepStops : Obligations.NoStepStops := by
  unfold Obligations.NoStepStops
  intro s
  rcases step_cases s with h | ⟨rest, _, h⟩ | ⟨c, rest, _, h⟩
  · exact ⟨_, h⟩
  · exact ⟨_, h⟩
  · exact h ▸ State.accept_next _ c

/-! ### What each kind leaves -/

/-- Settles O6: a ready core is not busy. -/
theorem stepRunsDecodedCommand : Obligations.StepRunsDecodedCommand := by
  unfold Obligations.StepRunsDecodedCommand
  intro s c rest hp hready
  have hstep := step_of_command hp (State.busy_eq_false_of_ready hready)
  exact ⟨hstep, fun i hi => hstep.trans (State.accept_ok hi)⟩

/-- Settles O5: a word that no row covers does not decode, and an illegal word is the fault entry. -/
theorem illegalWordsFault : Obligations.IllegalWordsFault := by
  unfold Obligations.IllegalWordsFault
  intro s c rest hp hready hf hnone
  obtain ⟨e, he⟩ := (decode_error_iff c).2 hnone
  rw [step_of_command hp (State.busy_eq_false_of_ready hready), State.accept_error he, State.illegalWord,
    if_neg (by simp [hf])]
  rfl

/-- Settles O8: both edges are idle edges. -/
theorem stepAcceptsNothingWhenIdleOrBusy : Obligations.StepAcceptsNothingWhenIdleOrBusy := by
  unfold Obligations.StepAcceptsNothingWhenIdleOrBusy
  intro s
  refine ⟨fun hp => step_of_no_event hp, fun c rest hp hphase => ?_⟩
  exact step_of_busy hp (by simp [State.busy, hphase])

theorem readX_replicate_zero {s : State} (h : s.x = Vector.replicate 4 0) (i : XReg) : s.readX i = 0 := by
  simp [State.readX, h]

theorem Words8.zero_get (j : Fin 8) : Words8.zero.get j = 0 := by
  fin_cases j <;> rfl

/-- Settles O7: the values that `State.afterReset` takes from `State.reset`. -/
theorem stepTakesReset : Obligations.StepTakesReset := by
  unfold Obligations.StepTakesReset
  intro s rest hp
  exact ⟨_, step_of_reset hp, readX_replicate_zero rfl, rfl, Words8.zero_get, rfl, rfl, rfl, rfl, rfl, rfl, rfl, rfl, rfl,
    rfl, rfl, rfl, rfl, rfl, rfl, rfl, fun a => rfl, rfl, rfl⟩

/-- Settles O13: the fields of `State.reset`; with no schedule entry valid, none can be read. -/
theorem resetHoldsStatedValues : Obligations.ResetHoldsStatedValues := by
  unfold Obligations.ResetHoldsStatedValues
  refine ⟨readX_replicate_zero rfl, fun j => rfl, Words8.zero_get, rfl, rfl, rfl, rfl, rfl, rfl, rfl, rfl, rfl, rfl, rfl, rfl,
    fun t ht => ?_, fun a => rfl⟩
  have hfill : State.reset.schedFill = 0 := rfl
  rw [State.readReg_eq, if_neg (by omega), if_pos (by omega)]

/-- Settles O11: without a reset a step of a halted core is an idle edge or an answer of R258, and both change only the response
and the offers. -/
theorem haltedUntilReset : Obligations.HaltedUntilReset := by
  unfold Obligations.HaltedUntilReset
  intro s t hf hreset h
  rcases step_cases s with hs | ⟨rest, hp, _⟩ | ⟨c, rest, _, hs⟩
  · cases hs.symm.trans h
    exact ⟨hf, rfl, rfl, rfl, rfl⟩
  · exact absurd hp (hreset rest)
  · cases (hs.trans (haltedCoreAnswersOnlyReads { s with pending := rest } c hf)).symm.trans h
    exact ⟨hf, rfl, rfl, rfl, rfl⟩

end Sys2Proof.Machine

/-! PROOF. The invariants (R8, R24 to R31, R35, R38, R91): what a completed command can leave of a legal state, said once for all
commands, and that each of it keeps the legal states and keeps true what the memos promise. -/

namespace Sys2Proof.Machine

/-! ### What a completed command leaves -/

/-- The states that a completed command can leave of a legal state, but for the response. -/
inductive State.Commits (s : State) : State → Prop where
  /-- NOP, RDREG, MSGRD, WEQ -/
  | same : s.Commits s
  /-- the word_arithmetic_unit -/
  | writeX (rd : XReg) (r : Word) : s.Commits (s.writeX rd r)
  /-- WRREG -/
  | setBitlen {d : Word} (hd : d.toNat ≤ 8 * s.msgCap) : s.Commits (s.setBitlen d)
  /-- MSGWR -/
  | msgwr {a : Nat} (b : Byte) (ha : a < s.msgCap) : s.Commits (s.writeMsg a b).clearMemos
  /-- PAD, PADRD -/
  | pad (h8 : s.bitLen % 8 = 0) : s.Commits s.padWrites
  /-- WLOAD -/
  | wload {idx : Nat} (h8 : s.bitLen % 8 = 0) (hidx : idx < s.blocks) : s.Commits (s.padWrites.wloadWrites idx)
  /-- WSTEP -/
  | wstep (hlo : 16 ≤ s.schedFill) (hhi : s.schedFill < 64) : s.Commits (s.wstepWrites s.schedFill)
  /-- EXPAND -/
  | expand {idx : Nat} (h8 : s.bitLen % 8 = 0) (hidx : idx < s.blocks) : s.Commits (s.padWrites.expandWrites idx)
  /-- CLOAD -/
  | cload : s.Commits s.cloadWrites
  /-- ROUND -/
  | round (i : Nat) : s.Commits (s.roundWrites i)
  /-- CFOLD -/
  | cfold : s.Commits s.cfoldWrites
  /-- COMPRESS -/
  | compress : s.Commits s.compressWrites
  /-- INIT -/
  | init : s.Commits s.initWrites
  /-- HASH -/
  | hash (h8 : s.bitLen % 8 = 0) : s.Commits s.hashReady.hashBlocks

/-- An effect that completes leaves one of those states. -/
def EffectCommits (s : State) (e : Effect) : Prop := ∀ u r, e = .ok (u, r) → s.Commits u

namespace EffectCommits

variable {s u : State} {e : Effect}

theorem ok (h : s.Commits u) (r : Word) : EffectCommits s (.ok (u, r)) := by
  rintro _ _ ⟨⟩
  exact h

theorem error (f : FaultKind) : EffectCommits s (.error f) := by
  rintro _ _ ⟨⟩

/-- A check in front of an effect. -/
theorem guard {c : Prop} [Decidable c] {f : FaultKind} (h : ¬ c → EffectCommits s e) :
    EffectCommits s (if c then .error f else e) := by
  split
  · exact error f
  · exact h ‹_›

/-- The padding step in front of an effect: in a legal state it ends in a fault, or leaves the memo of a message of whole
bytes. -/
theorem afterPad {p : State} {k : State → Effect} (hl : p.Legal)
    (hk : p.bitLen % 8 = 0 → EffectCommits s (k p.padWrites)) :
    EffectCommits s (match p.ensurePad with | .error f => .error f | .ok t => k t) := by
  by_cases h8 : p.bitLen % 8 = 0
  · rw [State.ensurePad_legal hl h8]
    exact hk h8
  · have hp : p.padValid = false := Bool.eq_false_iff.2 fun hp => h8 (hl.padSet hp).1
    rw [State.ensurePad_misaligned hp h8]
    exact error _

end EffectCommits

open EffectCommits in
/-- Every command but the two read-only ones runs an effect that leaves one of those states. -/
theorem exec_runs_effect_that_commits {i : Instr} {s : State} (hl : s.Legal) (hw : i.wellFormed = true) :
    (∃ e, exec i s = runReadOnly i s e) ∨ (∃ e, exec i s = runCommand i s e ∧ EffectCommits s e) := by
  cases i with
  | nop d => exact .inl ⟨_, exec_nop ..⟩
  | rdreg r8 d => exact .inl ⟨_, exec_rdreg ..⟩
  | wrreg r8 d =>
    exact .inr ⟨_, exec_wrreg .., guard fun _ => guard fun hd => ok (.setBitlen (Nat.le_of_not_lt hd)) 0⟩
  | init d => exact .inr ⟨_, exec_init .., ok .init 0⟩
  | hash d => exact .inr ⟨_, exec_hash .., afterPad hl.initWrites fun h8 => ok (State.Commits.hash (s := s) h8) 0⟩
  | msgwr a d => exact .inr ⟨_, exec_msgwr .., guard fun ha => ok (.msgwr _ (Nat.lt_of_not_le ha)) 0⟩
  | msgrd a d => exact .inr ⟨_, exec_msgrd .., guard fun _ => ok .same _⟩
  | pad d => exact .inr ⟨_, exec_pad .., afterPad hl fun h8 => ok (.pad h8) 0⟩
  | padrd j d => exact .inr ⟨_, exec_padrd .., afterPad hl fun h8 => guard fun _ => ok (.pad h8) _⟩
  | wload idx d =>
    refine .inr ⟨_, exec_wload .., afterPad hl fun h8 => guard fun hidx => ok (.wload h8 ?_) 0⟩
    rwa [State.padWrites_blkCount_toNat, Nat.not_le] at hidx
  | wstep t d =>
    refine .inr ⟨_, exec_wstep .., guard fun hlo => guard fun hfill => ?_⟩
    obtain rfl : t = s.schedFill := not_not.1 hfill
    exact ok (.wstep (Nat.le_of_not_lt hlo) (of_decide_eq_true hw)) 0
  | expand idx d =>
    refine .inr ⟨_, exec_expand .., afterPad hl fun h8 => guard fun hidx => ok (.expand h8 ?_) 0⟩
    rwa [State.padWrites_blkCount_toNat, Nat.not_le] at hidx
  | cload d => exact .inr ⟨_, exec_cload .., ok .cload 0⟩
  | round n d => exact .inr ⟨_, exec_round .., guard fun _ => ok (.round n) 0⟩
  | cfold d => exact .inr ⟨_, exec_cfold .., ok .cfold 0⟩
  | compress d => exact .inr ⟨_, exec_compress .., guard fun _ => ok .compress 0⟩
  | wldi rd hi8 d =>
    refine .inr ⟨_, exec_wldi .., ?_⟩
    split
    · exact error _
    · exact ok (.writeX rd _) _
  | wldb rd nb3 d =>
    refine .inr ⟨_, exec_wldb .., ?_⟩
    split
    · exact error _
    · exact ok (.writeX rd _) _
  | shr rd ra n d =>
    refine .inr ⟨_, exec_shr .., ?_⟩
    split
    · exact ok (.writeX rd _) _
    · exact error _
  | rotr rd ra n d =>
    refine .inr ⟨_, exec_rotr .., ?_⟩
    split
    · exact ok (.writeX rd _) _
    · exact error _
  | weq ra rb d => exact .inr ⟨_, exec_weq .., ok .same _⟩
  | add | xor | ch | maj | sigma0 | sigma1 | usigma0 | usigma1 => exact .inr ⟨.ok (_, _), rfl, ok (.writeX _ _) _⟩

/-- What an accepted word can leave: the refusal, the fault entry, or what a completed command leaves with its response. -/
inductive State.Answers (s : State) : State → Prop where
  | refuse : s.Answers s.refuse
  | raise (f : FaultKind) (c : Command) : s.Answers (s.raise f c)
  | respond {u : State} (h : s.Commits u) (r : Word) : s.Answers (u.respond true r)

theorem exec_answers {i : Instr} {s t : State} (hl : s.Legal) (hw : i.wellFormed = true) (h : exec i s = .next t) :
    s.Answers t := by
  obtain ⟨e, he⟩ | ⟨e, he, hc⟩ := exec_runs_effect_that_commits hl hw
  · rcases runReadOnly_cases (he ▸ h) with ⟨r, _, rfl⟩ | ⟨_, _, _, rfl⟩ | ⟨_, f, _, rfl⟩
    · exact .respond .same r
    · exact .refuse
    · exact .raise f _
  · rcases runCommand_cases (he ▸ h) with ⟨_, rfl⟩ | ⟨_, u, r, hu, rfl⟩ | ⟨_, f, _, rfl⟩
    · exact .refuse
    · exact .respond (hc u r hu) r
    · exact .raise f _

theorem State.accept_answers {s t : State} {c : Command} (hl : s.Legal) (h : s.accept c = .next t) : s.Answers t := by
  cases hd : decode c with
  | ok i => exact exec_answers hl (wellFormed_of_decode hd) ((State.accept_ok hd).symm.trans h)
  | error e =>
    rw [State.accept_error hd, State.illegalWord] at h
    split at h
    · cases h
      exact .refuse
    · cases h
      exact .raise _ c

/-! ### Legal states -/

theorem FaultKind.code_range (f : FaultKind) : 1 ≤ f.code.toNat ∧ f.code.toNat ≤ 6 := by
  cases f <;> decide

namespace State.Legal

variable {s u : State}

theorem writeMsg (hl : s.Legal) {a : Nat} (b : Byte) (ha : a < s.msgCap) : (s.writeMsg a b).Legal :=
  { hl with
    memory := Memory.store_wf hl.memory a b
    addresses := by
      intro p hp
      rcases Memory.mem_store hp with rfl | hp
      · exact ha
      · exact hl.addresses p hp }

theorem clearMemos (hl : s.Legal) : s.clearMemos.Legal :=
  { hl with
    padSet := by rintro ⟨⟩
    padClear := fun _ => rfl
    fill := .inl rfl
    emptyIdx := fun _ => rfl
    filledIdx := fun h => absurd rfl h }

theorem padWrites (hl : s.Legal) (h8 : s.bitLen % 8 = 0) : s.padWrites.Legal :=
  { hl with
    padSet := fun _ => ⟨h8, s.padWrites_blkCount_toNat⟩
    padClear := by rintro ⟨⟩
    filledIdx := fun h => ⟨rfl, (hl.filledIdx h).2⟩ }

/-- A schedule, complete or not, of a block of the padded message (R28). -/
theorem withSchedule (hl : s.Legal) (hp : s.padValid = true) {ws : List Word} {idx : Nat} (hlo : 16 ≤ ws.length)
    (hhi : ws.length ≤ 64) (hidx : idx < s.blocks) :
    State.Legal { s with w := ws, schedIdx := BitVec.ofNat 24 idx } :=
  have hfill : State.schedFill { s with w := ws, schedIdx := BitVec.ofNat 24 idx } = ws.length := rfl
  { hl with
    fill := .inr (hfill ▸ ⟨hlo, hhi⟩)
    emptyIdx := fun h => absurd (hfill.symm.trans h) (by omega)
    filledIdx := fun _ => ⟨hp, (State.idx_toNat hidx).trans_lt hidx⟩ }

/-- The hash state, the working registers and the digest flag are free in a legal state. -/
theorem withHash (hl : s.Legal) (h v : Words8) (b : Bool) : State.Legal { s with h := h, v := v, digestValid := b } :=
  { hl with }

theorem wstepWrites (hl : s.Legal) (hlo : 16 ≤ s.schedFill) (hhi : s.schedFill < 64) (t : Nat) : (s.wstepWrites t).Legal :=
  have hfill : (s.wstepWrites t).schedFill = s.schedFill + 1 := by simp [State.schedFill]
  { hl with
    fill := .inr (by omega)
    emptyIdx := fun h => absurd h (by omega)
    filledIdx := fun _ => hl.filledIdx (by omega) }

theorem respond (hl : s.Legal) {ok : Bool} {r : Word} (hr : ok = false → r = 0) : (s.respond ok r).Legal :=
  { hl with
    response := by
      rintro _ ⟨⟩
      exact hr }

theorem raise (hl : s.Legal) (f : FaultKind) (c : Command) : (s.raise f c).Legal :=
  { hl with
    running := by rintro ⟨⟩
    halted := fun _ => f.code_range
    response := by
      rintro _ ⟨⟩ _
      rfl }

theorem idleEdge (hl : s.Legal) : s.idleEdge.Legal :=
  { hl with response := by rintro _ ⟨⟩ }

theorem afterReset (hl : s.Legal) : s.afterReset.Legal :=
  { State.reset_legal with
    cap := hl.cap
    addresses := by rintro p ⟨⟩
    length := Nat.zero_le _ }

end State.Legal

/-- HASH after its padding step, with the digest of the message (R225, R230). -/
theorem State.hashBlocks_hashReady {s : State} (h8 : s.bitLen % 8 = 0) :
    s.hashReady.hashBlocks = { s.hashReady.blocksDone (s.blocks - 1) with digestValid := true } := by
  have hcount : s.hashReady.blkCount.toNat = s.blocks := s.initWrites.padWrites_blkCount_toNat
  rw [State.hashBlocks, hcount, State.foldl_hashBlock_hashReady h8]

theorem State.Commits.legal {s u : State} (hl : s.Legal) (h : s.Commits u) : u.Legal := by
  cases h with
  | same => exact hl
  | writeX rd r => exact { hl with }
  | setBitlen hd => exact hl.setBitlen hd
  | msgwr b ha => exact (hl.writeMsg b ha).clearMemos
  | pad h8 => exact hl.padWrites h8
  | wload h8 hidx => exact (hl.padWrites h8).withSchedule rfl (by simp) (by simp) hidx
  | wstep hlo hhi => exact hl.wstepWrites hlo hhi _
  | expand h8 hidx =>
    have hlength := scheduleOf_length (paddedMessage s.message)
    rw [State.expandWrites_eq_scheduleOf (s := s.padWrites) h8 hidx]
    exact (hl.padWrites h8).withSchedule rfl (by simp [hlength]) (by simp [hlength]) hidx
  | cload => exact { hl with }
  | round i => exact { hl with }
  | cfold => exact { hl with }
  | compress =>
    rw [State.compressWrites_eq]
    exact hl.withHash _ _ _
  | init => exact hl.initWrites
  | hash h8 =>
    have hlast : s.blocks - 1 < s.blocks := Nat.sub_lt s.blocks_pos Nat.one_pos
    have hlength := scheduleOf_length (paddedMessage s.message) (s.blocks - 1)
    rw [State.hashBlocks_hashReady h8]
    exact ((hl.initWrites.padWrites h8).withSchedule rfl (by rw [hlength]; decide) hlength.le hlast).withHash _ _ _

/-- Settles O14: every answer of a legal state is legal, as its commits are, and so are the idle edge and the reset. -/
theorem stepKeepsLegal : Obligations.StepKeepsLegal := by
  unfold Obligations.StepKeepsLegal
  intro s t hl h
  rcases step_cases s with hs | ⟨rest, _, hs⟩ | ⟨c, rest, _, hs⟩
  · cases hs.symm.trans h
    exact hl.idleEdge
  · cases hs.symm.trans h
    exact State.Legal.afterReset { hl with }
  · have hl' : State.Legal { s with pending := rest } := { hl with }
    cases State.accept_answers hl' (hs.symm.trans h) with
    | refuse => exact hl'.respond fun _ => rfl
    | raise f c => exact hl'.raise f c
    | respond hu r => exact (hu.legal hl').respond_true r

/-! ### What the memos promise -/

section Promises

variable {s u : State} {cs : List Column}

/-- The message is what the columns of the memory and of its length hold. -/
theorem State.WritesOnly.message_eq (hw : s.WritesOnly cs u) (hmsg : .msg ∉ cs) (hlen : .msgBitlen ∉ cs) :
    u.message = s.message := by
  have hbitlen : u.msgBitlen = s.msgBitlen := hw.blank .msgBitlen hlen
  exact State.message_eq_of_bytes hbitlen fun a _ => hw.blank .msg hmsg a

theorem State.WritesOnly.bitLen_eq (hw : s.WritesOnly cs u) (hlen : .msgBitlen ∉ cs) : u.bitLen = s.bitLen :=
  congrArg BitVec.toNat (hw.blank .msgBitlen hlen)

namespace State.MemosTrue

/-- An update that leaves the message and the schedule alone keeps the promise of the schedule. -/
theorem schedule_kept (hm : s.MemosTrue) (hw : s.WritesOnly cs u) (hcs : .msg ∉ cs ∧ .msgBitlen ∉ cs ∧ .sched ∉ cs) :
    u.schedFill ≠ 0 → u.w = (scheduleOf (paddedMessage u.message) u.schedIdx.toNat).take u.schedFill := by
  obtain ⟨hmsg, hlen, hsched⟩ := hcs
  obtain ⟨hws, hidx⟩ : u.w = s.w ∧ u.schedIdx = s.schedIdx := hw.blank .sched hsched
  rw [State.schedFill, hws, hidx, hw.message_eq hmsg hlen]
  exact hm.schedule

/-- An update that leaves the message and the hash state alone keeps the promise of the digest. -/
theorem digest_kept (hm : s.MemosTrue) (hw : s.WritesOnly cs u)
    (hcs : .msg ∉ cs ∧ .msgBitlen ∉ cs ∧ .h ∉ cs ∧ .digestValid ∉ cs) :
    u.digestValid = true → u.bitLen % 8 = 0 ∧ u.h = sha256 u.message := by
  obtain ⟨hmsg, hlen, hh, hdigest⟩ := hcs
  have hu : u.h = s.h := hw.blank .h hh
  have hd : u.digestValid = s.digestValid := hw.blank .digestValid hdigest
  rw [hd, hu, hw.bitLen_eq hlen, hw.message_eq hmsg hlen]
  exact hm.digest

theorem of_writesOnly (hm : s.MemosTrue) (hw : s.WritesOnly cs u)
    (hsched : .msg ∉ cs ∧ .msgBitlen ∉ cs ∧ .sched ∉ cs := by decide)
    (hdigest : .msg ∉ cs ∧ .msgBitlen ∉ cs ∧ .h ∉ cs ∧ .digestValid ∉ cs := by decide) : u.MemosTrue :=
  ⟨hm.schedule_kept hw hsched, hm.digest_kept hw hdigest⟩

/-- With `DIGEST_VALID = 0` the digest promises nothing. -/
theorem of_no_digest (hm : s.MemosTrue) (hw : s.WritesOnly cs u) (hd : u.digestValid = false)
    (hsched : .msg ∉ cs ∧ .msgBitlen ∉ cs ∧ .sched ∉ cs := by decide) : u.MemosTrue :=
  ⟨hm.schedule_kept hw hsched, fun h => absurd (hd.symm.trans h) Bool.false_ne_true⟩

/-- No schedule and no digest promise nothing. -/
theorem of_cleared (hfill : u.schedFill = 0) (hd : u.digestValid = false) : u.MemosTrue :=
  ⟨fun h => absurd hfill h, fun h => absurd (hd.symm.trans h) Bool.false_ne_true⟩

end State.MemosTrue

end Promises

/-! ### The words of the schedule -/

/-- The block's words are the first sixteen of its schedule (R181). -/
theorem scheduleOf_take_block (bs : List Byte) (idx : Nat) : (scheduleOf bs idx).take 16 = blockWordsOf bs idx := by
  refine List.ext_getElem (by simp [scheduleOf_length, blockWordsOf_length]) fun t h _ => ?_
  have ht : t < 16 := by simpa [scheduleOf_length] using h
  have hentry := (scheduleOf_getD_block bs idx ht).trans (blockWordsOf_getD bs idx ht).symm
  rwa [List.getD_eq_getElem _ _ (by rw [scheduleOf_length]; omega), List.getD_eq_getElem, ← List.getElem_take] at hentry

/-- One more word of the recurrence after the first n of a schedule (R182, R185). -/
theorem scheduleOf_take_succ (bs : List Byte) (idx : Nat) {n : Nat} (hlo : 16 ≤ n) (hhi : n < 64) :
    (scheduleOf bs idx).take (n + 1) = (scheduleOf bs idx).take n ++ [scheduleNext ((scheduleOf bs idx).take n) n] := by
  have hlength := scheduleOf_length bs idx
  have hn : n < (scheduleOf bs idx).length := by omega
  have hnext : scheduleNext ((scheduleOf bs idx).take n) n = (scheduleOf bs idx)[n] :=
    calc scheduleNext ((scheduleOf bs idx).take n) n
      _ = scheduleNext ((scheduleOf bs idx).take n ++ (scheduleOf bs idx).drop n) n :=
        (scheduleNext_append _ _ (by omega) (by simp [hlength]; omega)).symm
      _ = scheduleNext (scheduleOf bs idx) n := by rw [List.take_append_drop]
      _ = (scheduleOf bs idx)[n] := by rw [← scheduleOf_getD_next bs idx hlo hhi, List.getD_eq_getElem _ _ hn]
  rw [hnext, List.take_append_getElem hn]

theorem scheduleOf_take_all (bs : List Byte) (idx : Nat) : (scheduleOf bs idx).take 64 = scheduleOf bs idx :=
  List.take_of_length_le (scheduleOf_length bs idx).le

/-- A schedule, complete or not, of a block of the message (R28). -/
theorem State.MemosTrue.withSchedule {s : State} (hm : s.MemosTrue) {ws : List Word} {idx n : Nat} (hidx : idx < s.blocks)
    (hn : n ≤ 64) (hws : ws = (scheduleOf (paddedMessage s.message) idx).take n) :
    State.MemosTrue { s with w := ws, schedIdx := BitVec.ofNat 24 idx } where
  schedule _ := by
    have hlength : ws.length = n := by rw [hws, List.length_take, scheduleOf_length, Nat.min_eq_left hn]
    show ws = (scheduleOf (paddedMessage s.message) (BitVec.ofNat 24 idx).toNat).take ws.length
    rw [State.idx_toNat hidx, hlength, hws]
  digest := hm.digest

theorem State.withBlock_memosTrue {s : State} (h8 : s.bitLen % 8 = 0) {h v : Words8} {ws : List Word} {idx : Nat}
    (hidx : idx < s.blocks) (hws : ws = scheduleOf (paddedMessage s.message) idx) (hh : h = sha256 s.message) :
    State.MemosTrue { s.withBlock h v ws idx with digestValid := true } where
  schedule _ := by
    have hlength : ws.length = 64 := hws ▸ scheduleOf_length ..
    show ws = (scheduleOf (paddedMessage s.message) (BitVec.ofNat 24 idx).toNat).take ws.length
    rw [State.idx_toNat hidx, hlength, scheduleOf_take_all, hws]
  digest _ := ⟨h8, hh⟩

/-- The chain after the last block of the message is its digest (R225). -/
theorem State.chain_blocks (s : State) : chain (paddedMessage s.message) s.blocks = sha256 s.message := by
  rw [sha256, State.message_length, State.blocks]

theorem State.hashBlocks_memosTrue {s : State} (h8 : s.bitLen % 8 = 0) : s.hashReady.hashBlocks.MemosTrue := by
  have hlast : s.blocks - 1 + 1 = s.blocks := Nat.sub_add_cancel s.blocks_pos
  rw [State.hashBlocks_hashReady h8, State.blocksDone, hlast]
  exact State.withBlock_memosTrue (s := s.hashReady) h8 (Nat.sub_lt s.blocks_pos Nat.one_pos) rfl s.hashReady.chain_blocks

theorem State.Commits.memosTrue {s u : State} (hm : s.MemosTrue) (h : s.Commits u) : u.MemosTrue := by
  cases h with
  | same => exact hm
  | writeX rd r => exact hm.of_writesOnly (s.writeX_writesOnly rd r)
  | setBitlen _ => exact .of_cleared rfl rfl
  | msgwr _ _ => exact .of_cleared rfl rfl
  | pad _ => exact hm.of_writesOnly s.padWrites_writesOnly
  | wload h8 hidx =>
    exact (hm.of_writesOnly s.padWrites_writesOnly).withSchedule hidx (by decide)
      ((State.map_blockWord h8 hidx).trans (scheduleOf_take_block _ _).symm)
  | wstep hlo hhi =>
    refine ⟨fun _ => ?_, hm.digest_kept (s.wstepWrites_writesOnly _) (by decide)⟩
    have hfill : (s.wstepWrites s.schedFill).schedFill = s.schedFill + 1 := by simp [State.schedFill]
    rw [hfill, State.wstepWrites_message, State.wstepWrites_schedIdx, scheduleOf_take_succ _ _ hlo hhi,
      ← hm.schedule (by omega), State.wstepWrites_w]
  | expand h8 hidx =>
    rw [State.expandWrites_eq_scheduleOf (s := s.padWrites) h8 hidx]
    exact (hm.of_writesOnly s.padWrites_writesOnly).withSchedule hidx le_rfl (scheduleOf_take_all _ _).symm
  | cload => exact hm.of_writesOnly s.cloadWrites_writesOnly
  | round i => exact hm.of_writesOnly (s.roundWrites_writesOnly i)
  | cfold => exact hm.of_no_digest s.cfoldWrites_writesOnly rfl
  | compress => exact hm.of_no_digest s.compressWrites_writesOnly (by rw [State.compressWrites_eq])
  | init => exact hm.of_no_digest s.initWrites_writesOnly rfl
  | hash h8 => exact State.hashBlocks_memosTrue h8

/-- Settles O15: every answer of a state whose memos hold true keeps them true, as its commits do; an idle edge writes none of
what they speak of, and a reset clears them. -/
theorem stepKeepsMemosTrue : Obligations.StepKeepsMemosTrue := by
  unfold Obligations.StepKeepsMemosTrue
  intro s t hl hm h
  rcases step_cases s with hs | ⟨rest, _, hs⟩ | ⟨c, rest, _, hs⟩
  · cases hs.symm.trans h
    exact ⟨hm.schedule, hm.digest⟩
  · cases hs.symm.trans h
    exact .of_cleared rfl rfl
  · have hl' : State.Legal { s with pending := rest } := { hl with }
    have hm' : State.MemosTrue { s with pending := rest } := ⟨hm.schedule, hm.digest⟩
    cases State.accept_answers hl' (hs.symm.trans h) with
    | refuse => exact hm'.of_writesOnly (State.respond_writesOnly _ _ _)
    | raise f c => exact ⟨hm'.schedule, hm'.digest⟩
    | respond hu r => exact (hu.memosTrue hm').of_writesOnly (State.respond_writesOnly _ _ _)

/-- Settles O12: the reset state has no memo to keep true. -/
theorem resetStateIsLegal : Obligations.ResetStateIsLegal := by
  unfold Obligations.ResetStateIsLegal
  exact ⟨State.reset_legal, .of_cleared rfl rfl⟩

end Sys2Proof.Machine

/-! PROOF. The word_arithmetic_unit (R122 to R152): loads, shifts, the laws of rotations and of the sigma functions, and that its
commands are functions of the word registers; and completion, for every command (R240). -/

namespace Sys2Proof.Machine

/-- Settles O17: a command without a fault completes, and a running core keeps its fault record. -/
theorem commandsCompleteUnlessTheyFault : Obligations.CommandsCompleteUnlessTheyFault := by
  unfold Obligations.CommandsCompleteUnlessTheyFault
  intro i s hf hi
  obtain ⟨t, r, ht, hrsp, hrun⟩ := exec_of_faultOf_none hf hi
  obtain ⟨_, _, hrecord, _⟩ := exec_writeFrame ht
  exact ⟨t, r, ht, hrsp, hrun, hrecord hrun⟩

/-! ### Shifts and loads -/

/-- Settles O23: the numbers and bits of `shrW` and `rotrW`, in the frame of the word unit. -/
theorem shiftsComplete : Obligations.ShiftsComplete := by
  unfold Obligations.ShiftsComplete
  intro rd ra n d s hf hn
  have hrotr := (exec_rotr rd ra n d s).trans (by rw [dif_pos hn])
  refine ⟨⟨shrW (s.readX ra) ⟨n, Nat.lt_succ_of_le hn⟩, shrW_toNat _ _, fun k _ => getLsbD_shrW _ _ k, ?_⟩,
    exec_completes hf hrotr fun k hk => getLsbD_rotrW _ _ hk⟩
  rw [exec_shr, dif_pos hn]
  exact runCommand_ok _ (s.writeX rd _) _ hf

theorem wordFromInt_of_hi8_zero (d : Word) : wordFromInt (wldiOperand 0 d) = some d := by
  simp [wordFromInt, wldiOperand, d.isLt]

/-- The four lanes of a data word, first byte most significant, are the data word (R64, R139). -/
theorem be32_lanes (d : Word) : be32 (lane d 0) (lane d 1) (lane d 2) (lane d 3) = d := by
  have hd : d.toNat < 2 ^ 32 := d.isLt
  apply BitVec.eq_of_toNat_eq
  simp only [be32, lane, bits, BitVec.toNat_ofNat]
  omega

theorem wordFromBytes_of_four_lanes (d : Word) : wordFromBytes (wldbOperand 4 d) = some d :=
  congrArg some (be32_lanes d)

/-- Settles O26: both constructors give the data word. -/
theorem loadsComplete : Obligations.LoadsComplete := by
  unfold Obligations.LoadsComplete
  intro rd d s hf
  constructor
  · rw [exec_wldi, wordFromInt_of_hi8_zero]
    exact runCommand_ok _ (s.writeX rd d) d hf
  · rw [exec_wldb, wordFromBytes_of_four_lanes]
    exact runCommand_ok _ (s.writeX rd d) d hf

theorem encode_wldi_cmd (rd : XReg) (hi8 : Nat) (d : Word) :
    (encode (.wldi rd hi8 d)).cmd = BitVec.ofNat 32 (0x40 * 2 ^ 24 + rd.val * 2 ^ 22 + hi8) := by
  simp only [encode, Instr.opcode, Instr.imm24, Nat.add_assoc]

theorem encode_wldb_cmd (rd : XReg) (nb3 : Nat) (d : Word) :
    (encode (.wldb rd nb3 d)).cmd = BitVec.ofNat 32 (0x41 * 2 ^ 24 + rd.val * 2 ^ 22 + nb3) := by
  simp only [encode, Instr.opcode, Instr.imm24, Nat.add_assoc]

/-- Settles O27: the rule of each load gives InvalidLength, and the fault entry records the word it assembles to. -/
theorem loadsOfWrongLengthFault : Obligations.LoadsOfWrongLengthFault := by
  unfold Obligations.LoadsOfWrongLengthFault
  refine ⟨fun rd hi8 d s hf hpos _ => ?_, fun rd nb3 d s hf hne _ => ?_⟩
  · have hfault : s.faultOf (.wldi rd hi8 d) = some .invalidLength := if_pos hpos.ne'
    rw [exec_of_faultOf_some hf hfault, State.raise, encode_wldi_cmd]
    rfl
  · have hfault : s.faultOf (.wldb rd nb3 d) = some .invalidLength := if_pos hne
    rw [exec_of_faultOf_some hf hfault, State.raise, encode_wldb_cmd]
    rfl

/-! ### Rotations (R152, law 6) -/

theorem rotrW_rotrW (x : Word) (m n : Fin 33) : rotrW (rotrW x m) n = rotrW x ⟨(m.val + n.val) % 32, by omega⟩ := by
  apply BitVec.eq_of_getLsbD_eq
  intro k hk
  rw [getLsbD_rotrW _ _ hk, getLsbD_rotrW _ _ (Nat.mod_lt _ (by decide)), getLsbD_rotrW _ _ hk]
  congr 1
  show ((k + n.val) % 32 + m.val) % 32 = (k + (m.val + n.val) % 32) % 32
  omega

/-- Amounts that make up a whole turn. -/
theorem rotrW_rotrW_of_turn (x : Word) {m n : Fin 33} (h : m.val + n.val = 32) : rotrW (rotrW x m) n = x := by
  have hzero : (⟨(m.val + n.val) % 32, by omega⟩ : Fin 33) = 0 := Fin.ext (by show (m.val + n.val) % 32 = 0; omega)
  rw [rotrW_rotrW, hzero, rotrW_zero]

/-- Settles O29: the rotation by 32 − n is the inverse on both sides. -/
theorem rotrIsBijective : Obligations.RotrIsBijective := by
  unfold Obligations.RotrIsBijective
  have hinverse (x : Word) (n : Fin 33) : rotrW (rotrW x n) ⟨32 - n.val, by omega⟩ = x :=
    rotrW_rotrW_of_turn x (by show n.val + (32 - n.val) = 32; omega)
  have hinverse' (x : Word) (n : Fin 33) : rotrW (rotrW x ⟨32 - n.val, by omega⟩) n = x :=
    rotrW_rotrW_of_turn x (by show 32 - n.val + n.val = 32; omega)
  refine ⟨fun n => ?_, hinverse, rotrW_rotrW, fun x => ⟨rotrW_zero x, rotrW_full x⟩⟩
  exact Function.bijective_iff_has_inverse.2 ⟨_, fun x => hinverse x n, fun x => hinverse' x n⟩

/-! ### Linearity (R152, law 8) -/

/-- A function that distributes over `xor`. -/
def XorLinear (f : Word → Word) : Prop := ∀ x y, f (xorW x y) = xorW (f x) (f y)

namespace XorLinear

theorem rotrW (n : Fin 33) : XorLinear (rotrW · n) := by
  intro x y
  apply BitVec.eq_of_getLsbD_eq
  intro k hk
  simp only [xorW, BitVec.getLsbD_xor, getLsbD_rotrW _ _ hk]

theorem shrW (n : Fin 33) : XorLinear (shrW · n) := by
  intro x y
  apply BitVec.eq_of_getLsbD_eq
  intro k _
  simp only [xorW, BitVec.getLsbD_xor, getLsbD_shrW]

theorem xor {f g : Word → Word} (hf : XorLinear f) (hg : XorLinear g) : XorLinear (fun x => f x ^^^ g x) := by
  intro x y
  show f (xorW x y) ^^^ g (xorW x y) = xorW (f x ^^^ g x) (f y ^^^ g y)
  rw [hf, hg]
  simp only [xorW]
  ac_rfl

theorem sigma0W : XorLinear sigma0W := ((rotrW 7).xor (rotrW 18)).xor (shrW 3)

theorem sigma1W : XorLinear sigma1W := ((rotrW 17).xor (rotrW 19)).xor (shrW 10)

theorem usigma0W : XorLinear usigma0W := ((rotrW 2).xor (rotrW 13)).xor (rotrW 22)

theorem usigma1W : XorLinear usigma1W := ((rotrW 6).xor (rotrW 11)).xor (rotrW 25)

end XorLinear

/-- Settles O30: rotations and shifts act bit by bit, and each sigma function is a sum of three of them. -/
theorem sigmasAreLinear : Obligations.SigmasAreLinear := by
  unfold Obligations.SigmasAreLinear
  exact ⟨fun x y n => ⟨XorLinear.rotrW n x y, XorLinear.shrW n x y⟩,
    fun x y => ⟨XorLinear.sigma0W x y, XorLinear.sigma1W x y, XorLinear.usigma0W x y, XorLinear.usigma1W x y⟩, by decide⟩

/-! ### Functions of the word registers -/

/-- The effect, on a state, of a function of the word registers: their new contents with the result, or a fault. -/
def registerEffect (f : Vector Word 4 → Except FaultKind (Vector Word 4 × Word)) (s : State) : Effect :=
  match f s.x with
  | .ok (x, r) => .ok ({ s with x := x }, r)
  | .error k => .error k

/-- A command that runs the effect of one function of the word registers, whatever state it runs in. -/
def RunsRegisterFunction (i : Instr) : Prop := ∃ f, ∀ s, exec i s = runCommand i s (registerEffect f s)

namespace RunsRegisterFunction

variable {i : Instr}

theorem of_result (rd : XReg) (g : Vector Word 4 → Word)
    (h : ∀ s, exec i s = runCommand i s (.ok (s.setResult rd (g s.x)))) : RunsRegisterFunction i :=
  ⟨fun x => .ok (x.set rd.val (g x), g x), h⟩

theorem of_fault (k : FaultKind) (h : ∀ s, exec i s = runCommand i s (.error k)) : RunsRegisterFunction i :=
  ⟨fun _ => .error k, h⟩

end RunsRegisterFunction

open RunsRegisterFunction in
/-- Each command of the unit is one (R151). -/
theorem runsRegisterFunction_of_wau {i : Instr} (hi : isWauCommand i = true) : RunsRegisterFunction i := by
  cases i with
  | wldi rd hi8 d =>
    cases hv : wordFromInt (wldiOperand hi8 d) with
    | none => exact of_fault .invalidLength fun s => by rw [exec_wldi, hv]
    | some r => exact of_result rd (fun _ => r) fun s => by rw [exec_wldi, hv]
  | wldb rd nb3 d =>
    cases hv : wordFromBytes (wldbOperand nb3 d) with
    | none => exact of_fault .invalidLength fun s => by rw [exec_wldb, hv]
    | some r => exact of_result rd (fun _ => r) fun s => by rw [exec_wldb, hv]
  | shr rd ra n d =>
    by_cases hn : n ≤ 32
    · exact of_result rd (fun x => shrW x[ra.val] ⟨n, Nat.lt_succ_of_le hn⟩) fun s => by rw [exec_shr, dif_pos hn]; rfl
    · exact of_fault .illegalOperand fun s => by rw [exec_shr, dif_neg hn]
  | rotr rd ra n d =>
    by_cases hn : n ≤ 32
    · exact of_result rd (fun x => rotrW x[ra.val] ⟨n, Nat.lt_succ_of_le hn⟩) fun s => by rw [exec_rotr, dif_pos hn]; rfl
    · exact of_fault .illegalOperand fun s => by rw [exec_rotr, dif_neg hn]
  | add rd ra rb d => exact of_result rd (fun x => addW x[ra.val] x[rb.val]) fun s => exec_add ..
  | xor rd ra rb d => exact of_result rd (fun x => xorW x[ra.val] x[rb.val]) fun s => exec_xor ..
  | ch rd ra rb rc d => exact of_result rd (fun x => chW x[ra.val] x[rb.val] x[rc.val]) fun s => exec_ch ..
  | maj rd ra rb rc d => exact of_result rd (fun x => majW x[ra.val] x[rb.val] x[rc.val]) fun s => exec_maj ..
  | sigma0 rd ra d => exact of_result rd (fun x => sigma0W x[ra.val]) fun s => exec_sigma0 ..
  | sigma1 rd ra d => exact of_result rd (fun x => sigma1W x[ra.val]) fun s => exec_sigma1 ..
  | usigma0 rd ra d => exact of_result rd (fun x => usigma0W x[ra.val]) fun s => exec_usigma0 ..
  | usigma1 rd ra d => exact of_result rd (fun x => usigma1W x[ra.val]) fun s => exec_usigma1 ..
  | weq ra rb d => exact ⟨fun x => .ok (x, if eqW x[ra.val] x[rb.val] then 1 else 0), fun s => exec_weq ..⟩
  | nop | rdreg | wrreg | init | hash | msgwr | msgrd | pad | padrd | wload | wstep | expand | cload | round | cfold
  | compress => cases hi

/-- Settles O31: on equal registers one function gives one answer, and a fault records the command alone. -/
theorem wauDependsOnlyOnX : Obligations.WauDependsOnlyOnX := by
  unfold Obligations.WauDependsOnlyOnX
  intro i s s' hi hf hf' hx
  obtain ⟨f, hexec⟩ := runsRegisterFunction_of_wau hi
  rw [hexec, hexec, registerEffect, registerEffect, ← hx]
  cases f s.x with
  | ok p =>
    refine ⟨_, _, runCommand_ok _ _ _ hf, runCommand_ok _ _ _ hf', rfl, rfl, hf.trans hf'.symm, fun ht => ?_⟩
    exact absurd (hf.symm.trans ht) Bool.false_ne_true
  | error k =>
    exact ⟨_, _, runCommand_error _ _ hf, runCommand_error _ _ hf', hx, rfl, rfl, fun _ => ⟨rfl, rfl, rfl⟩⟩

end Sys2Proof.Machine

/-! PROOF. The message memory and the padded view (R162, R166 to R168, R70), the schedule and the rounds (R184, R185, R205,
R207), and the registers (R222, R223) and HASH (R230) of the top-level control. -/

namespace Sys2Proof.Machine

/-! ### The message memory -/

theorem zext32_toNat (b : Byte) : (zext32 b).toNat = b.toNat := by
  have hb : b.toNat < 2 ^ 8 := b.isLt
  rw [zext32, BitVec.toNat_ofNat]
  omega

theorem lowByte_toNat (d : Word) : (lowByte d).toNat = d.toNat % 256 := by
  simp only [lowByte, bits, BitVec.toNat_ofNat]
  omega

section Memory

variable {s : State} (hf : s.fault = false)
include hf

theorem exec_msgwr_ok {a : Nat} (d : Word) (ha : a < s.msgCap) :
    exec (.msgwr a d) s = .next ((s.writeMsg a (lowByte d)).clearMemos.respond true 0) := by
  rw [exec_msgwr, if_neg (Nat.not_le.mpr ha)]
  exact runCommand_ok _ _ _ hf

theorem exec_msgrd_ok {a : Nat} (d : Word) (ha : a < s.msgCap) :
    exec (.msgrd a d) s = .next (s.respond true (zext32 (s.msgByte a))) := by
  rw [exec_msgrd, if_neg (Nat.not_le.mpr ha)]
  exact runCommand_ok _ _ _ hf

end Memory

/-- Settles O32: the write of one byte, with its read-after-write laws and the canonical form it keeps. -/
theorem msgwrStoresOneByte : Obligations.MsgwrStoresOneByte := by
  unfold Obligations.MsgwrStoresOneByte
  intro a d s hf ha
  refine ⟨_, exec_msgwr_ok hf d ha, ?_, fun b hb => s.msgByte_writeMsg_other _ hb,
    fun hwf => Memory.store_wf hwf a _, rfl⟩
  rw [State.respond_msgByte, State.clearMemos_msgByte, State.msgByte_writeMsg_same, lowByte_toNat]

/-- Settles O33: the byte zero-extended. -/
theorem msgrdAnswersByte : Obligations.MsgrdAnswersByte := by
  unfold Obligations.MsgrdAnswersByte
  intro a d s hf ha
  exact ⟨_, zext32_toNat _, exec_msgrd_ok hf d ha⟩

/-- Settles O34: a read of the state that the write leaves. -/
theorem msgrdReturnsLatestMsgwr : Obligations.MsgrdReturnsLatestMsgwr := by
  unfold Obligations.MsgrdReturnsLatestMsgwr
  intro a b d e s hf ha hb
  refine ⟨_, _, exec_msgwr_ok hf d ha, exec_msgrd_ok (s := (s.writeMsg a (lowByte d)).clearMemos.respond true 0) hf e hb,
    fun hba => ?_, fun hba => ?_⟩
  · rw [zext32_toNat, hba, State.respond_msgByte, State.clearMemos_msgByte, State.msgByte_writeMsg_same, lowByte_toNat]
  · rw [zext32_toNat, State.respond_msgByte, State.clearMemos_msgByte, State.msgByte_writeMsg_other _ _ hba]

/-! ### The padded view -/

/-- Settles O38: the length of the padded message is that of its blocks, and the padded view has its bytes. -/
theorem paddedViewIsPaddedMessage : Obligations.PaddedViewIsPaddedMessage := by
  unfold Obligations.PaddedViewIsPaddedMessage
  intro s h8
  refine ⟨?_, fun j hj => State.paddedByte_eq h8 hj⟩
  rw [paddedMessage_length, State.message_length, State.paddedLen, State.blocks]

theorem exec_padrd_ok {s t : State} (d : Word) {j : Nat} (hf : s.fault = false) (he : s.ensurePad = .ok t)
    (hj : j < 64 * t.blkCount.toNat) : exec (.padrd j d) s = .next (t.respond true (zext32 (t.paddedByte j))) := by
  rw [exec_padrd, he]
  simp only [Nat.not_le.mpr hj, if_false]
  exact runCommand_ok _ _ _ hf

/-- Settles O36: the padding step succeeds, and the byte of the padded view is that of the padded message. -/
theorem padrdAnswersPaddedByte : Obligations.PadrdAnswersPaddedByte := by
  unfold Obligations.PadrdAnswersPaddedByte
  intro j d s hl hf h8 hj
  refine ⟨_, ?_, exec_padrd_ok d hf (State.ensurePad_legal hl h8) (by rwa [State.padWrites_blkCount_toNat])⟩
  rw [zext32_toNat, State.padWrites_paddedByte, State.paddedByte_eq h8 hj]

/-! ### The schedule -/

theorem be32_toNat (b0 b1 b2 b3 : Byte) :
    (be32 b0 b1 b2 b3).toNat = b0.toNat * 2 ^ 24 + b1.toNat * 2 ^ 16 + b2.toNat * 2 ^ 8 + b3.toNat := by
  have h0 : b0.toNat < 2 ^ 8 := b0.isLt
  have h1 : b1.toNat < 2 ^ 8 := b1.isLt
  have h2 : b2.toNat < 2 ^ 8 := b2.isLt
  have h3 : b3.toNat < 2 ^ 8 := b3.isLt
  rw [be32, BitVec.toNat_ofNat]
  omega

/-- Settles O39: the words that the load takes from the padded view are the block's words of the padded message. -/
theorem wloadLoadsBlock : Obligations.WloadLoadsBlock := by
  unfold Obligations.WloadLoadsBlock
  intro idx d s hl hf h8 hidx
  refine ⟨blockWordsOf (paddedMessage s.message) idx, blockWordsOf_length .., fun t ht => ?_, ?_⟩
  · rw [blockWordsOf_getD _ _ ht, wordAt, be32_toNat]
  · have hwords : (List.range 16).map (s.padWrites.blockWord idx) = blockWordsOf (paddedMessage s.message) idx :=
      State.map_blockWord h8 hidx
    rw [exec_wload_ok d hf (State.ensurePad_legal hl h8) (by rwa [State.padWrites_blkCount_toNat]), State.wloadWrites,
      hwords]
    rfl

/-- Settles O40: WSTEP appends `scheduleNext`. -/
theorem wstepExtendsSchedule : Obligations.WstepExtendsSchedule := by
  unfold Obligations.WstepExtendsSchedule
  rintro t d s hf hlo _ rfl
  exact ⟨_, (scheduleNext_eq s.w s.schedFill).symm ▸ rfl, exec_wstep_ok d hf hlo⟩

/-! ### The rounds -/

/-- The round function with its sums as `BitVec`s (R201). -/
theorem roundFn_eq (i : Nat) (v : Words8) (w : Word) : roundFn i v w =
    ⟨roundT1 i v.w4 v.w5 v.w6 v.w7 w + roundT2 v.w0 v.w1 v.w2, v.w0, v.w1, v.w2,
      v.w3 + roundT1 i v.w4 v.w5 v.w6 v.w7 w, v.w4, v.w5, v.w6⟩ := by
  simp only [roundFn, addW_eq]

/-- Settles O43: the round function on `V`, with the constant and the schedule word of its index. -/
theorem roundUpdatesWorkingRegisters : Obligations.RoundUpdatesWorkingRegisters := by
  unfold Obligations.RoundUpdatesWorkingRegisters
  intro i d s hf hi
  refine ⟨roundT1 i s.v.w4 s.v.w5 s.v.w6 s.v.w7 (s.schedWord i), roundT2 s.v.w0 s.v.w1 s.v.w2, roundT1_eq .., roundT2_eq ..,
    ?_⟩
  rw [exec_round_ok d hf hi, State.roundWrites, roundFn_eq]
  rfl

/-- Settles O44: the registers after i rounds are `roundsFn i`, and COMPRESS leaves those of round 63 and adds them to `H`. -/
theorem compressFoldsBlock : Obligations.CompressFoldsBlock := by
  unfold Obligations.CompressFoldsBlock
  intro d s hf hfill
  refine ⟨fun i => roundsFn i s.h s.w, roundsFn_zero .., fun i _ => roundsFn_succ .., compressFn.eq_1 .., ?_⟩
  rw [exec_compress_ok d hf hfill, State.compressWrites_eq, compressFn]
  rfl

/-! ### The registers -/

theorem exec_wrreg_ok {s : State} {d : Word} (hf : s.fault = false) (hd : d.toNat ≤ 8 * s.msgCap) :
    exec (.wrreg 0x04 d) s = .next ((s.setBitlen d).respond true 0) := by
  rw [exec_wrreg, if_neg (not_not.mpr rfl), if_neg (Nat.not_lt.mpr hd)]
  exact runCommand_ok _ _ _ hf

/-- Settles O47: the two checks pass, and WRREG answers with its register writes. -/
theorem wrregSetsLength : Obligations.WrregSetsLength := by
  unfold Obligations.WrregSetsLength
  exact fun d s hf hd => exec_wrreg_ok hf hd

/-- HASH as one update, with the digest of the message (R225, R230). -/
theorem exec_hash_digest (d : Word) {s : State} (hl : s.Legal) (hf : s.fault = false) (h8 : s.bitLen % 8 = 0) :
    exec (.hash d) s = .next (State.respond { s.hashReady.withBlock (sha256 s.message)
      (roundsFn 64 (chain (paddedMessage s.message) (s.blocks - 1)) (scheduleOf (paddedMessage s.message) (s.blocks - 1)))
      (scheduleOf (paddedMessage s.message) (s.blocks - 1)) (s.blocks - 1) with digestValid := true } true 0) := by
  have hlast : s.blocks - 1 + 1 = s.blocks := Nat.sub_add_cancel s.blocks_pos
  rw [exec_hash_ok d hl hf h8, State.blocksDone, hlast, State.hashReady_message, State.chain_blocks]

/-- What INIT, the padding step and the last block leave of a state, whatever their values are. -/
theorem State.hashReady_withBlock_respond (s : State) (h v : Words8) (w : List Word) (idx : Nat) :
    State.respond { s.hashReady.withBlock h v w idx with digestValid := true } true 0 = { s with
      h := h, v := v, padValid := true, blkCount := BitVec.ofNat 32 s.blocks, w := w, schedIdx := BitVec.ofNat 24 idx
      digestValid := true, rsp := some ⟨true, 0⟩ } := rfl

/-- Settles O49: HASH as one update, with the chain after the last block as the digest. -/
theorem hashComputesSha256 : Obligations.HashComputesSha256 := by
  unfold Obligations.HashComputesSha256
  intro d s hl hf h8
  rw [exec_hash_digest d hl hf h8, State.hashReady_withBlock_respond]

end Sys2Proof.Machine

/-! PROOF. The register map (R32, R36, R222), and the pins (R43, R90, R231). -/

namespace Sys2Proof.Machine

/-! ### The register map -/

theorem regAt_h : ∀ j : Fin 8, regAt (0x10 + j.val) = some (.h j) := by decide

theorem regAt_v : ∀ j : Fin 8, regAt (0x18 + j.val) = some (.v j) := by decide

theorem regAt_x : ∀ i : XReg, regAt (0x20 + i.val) = some (.x i) := by decide

theorem regAt_w : ∀ t : Fin 64, regAt (0x40 + t.val) = some (.w t) := by decide

theorem regAt_k : ∀ i : Fin 64, regAt (0x80 + i.val) = some (.k i) := by decide

theorem regAt_hinit : ∀ j : Fin 8, regAt (0xC0 + j.val) = some (.hinit j) := by decide

theorem status_bits (s : State) :
    s.status.getLsbD 0 = s.padValid ∧ s.status.getLsbD 1 = decide (s.schedFill = 64) ∧
    s.status.getLsbD 2 = s.digestValid ∧ s.status.getLsbD 3 = s.fault ∧ s.status.toNat / 16 = 0 := by
  rw [State.status, ← State.schedValid]
  generalize s.padValid = pad, s.schedValid = sched, s.digestValid = digest, s.fault = fault
  revert pad sched digest fault
  decide

theorem getElem?_eq_some_getD {α : Type} {l : List α} {i : Nat} (h : i < l.length) (z : α) : l[i]? = some (l.getD i z) := by
  rw [List.getElem?_eq_getElem h, List.getD_eq_getElem _ _ h]

/-- RDREG of an address that can be read answers the value of the register at the address. -/
theorem exec_rdreg_value {s : State} {r8 : Nat} (d : Word) (hm : mapped r8) (hu : ¬ s.unreadable r8) :
    ∃ v, exec (.rdreg r8 d) s = .next (s.respond true v) ∧ ∀ r, regAt r8 = some r → v = s.regValue r :=
  ⟨_, exec_rdreg_readable d ⟨hm, hu⟩, fun r hr => by rw [hr]; rfl⟩

/-- Settles O46: the register at each address of the map, and what its value is. -/
theorem rdregAnswersRegister : Obligations.RdregAnswersRegister := by
  unfold Obligations.RdregAnswersRegister
  intro r8 d s hm hu
  obtain ⟨v, hexec, hv⟩ := exec_rdreg_value d hm hu
  refine ⟨v, hexec, ?_, ?_, ?_, ?_, ?_, ?_, ?_, ?_, ?_, ?_, ?_, ?_, ?_, ?_, ?_⟩
  · rintro rfl
    exact hv .status rfl ▸ status_bits s
  · rintro rfl
    rw [hv .err rfl]
    exact (BitVec.toNat_ofNat ..).trans (Nat.mod_eq_of_lt (s.err.isLt.trans (by decide)))
  · rintro rfl
    exact hv .errCmd rfl
  · rintro rfl
    exact hv .errData rfl
  · rintro rfl
    exact hv .msgBitlen rfl
  · rintro rfl
    exact hv .blkCount rfl
  · rintro rfl
    rw [hv .schedIdx rfl]
    exact (BitVec.toNat_ofNat ..).trans (Nat.mod_eq_of_lt (s.schedIdx.isLt.trans (by decide)))
  · rintro rfl
    exact hv .schedFill rfl ▸ BitVec.toNat_ofNat ..
  · rintro rfl
    exact hv .msgCap rfl ▸ BitVec.toNat_ofNat ..
  · rintro j rfl
    exact hv (.h j) (regAt_h j)
  · rintro j rfl
    exact hv (.v j) (regAt_v j)
  · rintro i rfl
    exact hv (.x i) (regAt_x i)
  · rintro t ht rfl
    have hvalid : t < s.w.length := by
      rw [State.unreadable, State.schedFill] at hu
      omega
    rw [hv (.w ⟨t, ht⟩) (regAt_w ⟨t, ht⟩)]
    exact getElem?_eq_some_getD hvalid 0
  · rintro i hi rfl
    rw [hv (.k ⟨i, hi⟩) (regAt_k ⟨i, hi⟩)]
    exact getElem?_eq_some_getD hi 0
  · rintro j rfl
    exact hv (.hinit j) (regAt_hinit j)

/-! ### The digest pins -/

/-- Word j of the digest bits, counted from the most significant (R43). The width is written as the sum of the words' widths, and
kept so, for the words to be cut off one by one. -/
theorem digestBits_word (h : Words8) (j : Fin 8) : (digestBits h).extractLsb' (224 - 32 * j.val) 32 = h.get j := by
  show BitVec.extractLsb' (n := 32 + 32 + 32 + 32 + 32 + 32 + 32 + 32) _ _
    (h.w0 ++ h.w1 ++ h.w2 ++ h.w3 ++ h.w4 ++ h.w5 ++ h.w6 ++ h.w7) = _
  fin_cases j <;>
    simp [-Nat.reduceAdd, Words8.get, BitVec.extractLsb'_append_eq_of_le, BitVec.extractLsb'_append_eq_of_add_le]

theorem extractLsb'_of_extractLsb' {n : Nat} (b : BitVec n) {lo len off m : Nat} (h : off + m ≤ len) :
    (b.extractLsb' lo len).extractLsb' off m = b.extractLsb' (lo + off) m := by
  apply BitVec.eq_of_getLsbD_eq
  intro k hk
  have hin : off + k < len := by omega
  simp [hk, hin, Nat.add_assoc]

theorem beBytes_getD_word (w : Word) {r : Nat} (hr : r < 4) :
    (beBytes 4 w.toNat).getD r 0 = w.extractLsb' (24 - 8 * r) 8 := by
  rw [beBytes_getD 4 _ r hr, show 8 * (4 - 1 - r) = 24 - 8 * r by omega, ← Nat.shiftRight_eq_div_pow]
  rfl

theorem digestBytes_length (h : Words8) : (digestBytes h).length = 32 := by
  simp [digestBytes, words8List, beBytes_length]

/-- Byte r of word j of the digest. -/
theorem digestBytes_getD (h : Words8) (j : Fin 8) {r : Nat} (hr : r < 4) :
    (digestBytes h).getD (4 * j.val + r) 0 = (h.get j).extractLsb' (24 - 8 * r) 8 :=
  calc (digestBytes h).getD (4 * j.val + r) 0
    _ = (((digestBytes h).drop (4 * j.val)).take 4).getD r 0 := by
      simp [List.getD_eq_getElem?_getD, hr]
    _ = (beBytes 4 (h.get j).toNat).getD r 0 := by
      rw [digestBytes, take_drop_flatMap (fun _ => beBytes_length ..) (words8List_getElem? h j)]
    _ = (h.get j).extractLsb' (24 - 8 * r) 8 := beBytes_getD_word _ hr

/-- Byte k of the digest stands at bits 255−8k : 248−8k (R231). -/
theorem digestBytes_getD_bits (h : Words8) {k : Nat} (hk : k < 32) :
    (digestBytes h).getD k 0 = (digestBits h).extractLsb' (248 - 8 * k) 8 := by
  have hword : k / 4 < 8 := by omega
  have hr : k % 4 < 4 := Nat.mod_lt _ (by decide)
  have hbyte := digestBytes_getD h ⟨k / 4, hword⟩ hr
  rw [← digestBits_word h ⟨k / 4, hword⟩, extractLsb'_of_extractLsb' _ (by omega)] at hbyte
  rwa [Nat.div_add_mod, show 224 - 32 * (k / 4) + (24 - 8 * (k % 4)) = 248 - 8 * k by omega] at hbyte

/-- Settles O53: the pins are those functions of the state, and the digest's words and bytes stand at their bits. -/
theorem pinsShowDigest : Obligations.PinsShowDigest := by
  unfold Obligations.PinsShowDigest
  intro s
  refine ⟨(decide_not ..).symm, rfl, rfl, rfl, fun hd => ?_, fun hd => ?_⟩
  · rw [State.pins, hd]
    rfl
  · refine ⟨digestBits s.h, by rw [State.pins, hd]; rfl, digestBits_word s.h, digestBytes_length s.h, ?_⟩
    exact fun k hk => digestBytes_getD_bits s.h hk

end Sys2Proof.Machine

/-! PROOF. The hidden sequencer (R35, R186, R207, R230): its primitive steps as paths of busy states, put together as the
composite commands are. -/

namespace Sys2Proof.Machine

/-! ### Paths of the sequencer -/

/-- The state with the sequencer at a place. -/
def State.withSeq (s : State) (p : Seq) : State := { s with seq := p }

theorem State.withSeq_eq_self {s : State} {p : Seq} (h : s.seq = p) : s.withSeq p = s := by
  rw [← h]
  rfl

/-- n primitive steps of a composite command lead from one state to another, each of them from a busy state. -/
inductive SeqPath (k : Composite) : Nat → State → State → Prop where
  | nil (s : State) : SeqPath k 0 s s
  | cons {n : Nat} {s t u : State} (busy : s.busy = true) (head : s.seqStep k = t) (tail : SeqPath k n t u) :
      SeqPath k (n + 1) s u

namespace SeqPath

variable {k : Composite} {m n : Nat} {s t u : State}

theorem seqRun_eq (h : SeqPath k n s t) : State.seqRun k n s = t := by
  induction h with
  | nil s => rfl
  | cons busy head tail ih => rw [State.seqRun, head, ih]

theorem busy_before (h : SeqPath k n s t) : ∀ m, m < n → (State.seqRun k m s).busy = true := by
  induction h with
  | nil s => exact fun m hm => absurd hm (Nat.not_lt_zero m)
  | cons busy head tail ih =>
    intro m hm
    cases m with
    | zero => exact busy
    | succ m =>
      rw [State.seqRun, head]
      exact ih m (Nat.lt_of_succ_lt_succ hm)

theorem trans (h : SeqPath k m s t) (h' : SeqPath k n t u) : SeqPath k (m + n) s u := by
  induction h with
  | nil s => rwa [Nat.zero_add]
  | cons busy head tail ih =>
    rw [Nat.succ_add]
    exact .cons busy head (ih h')

theorem single (busy : s.busy = true) (head : s.seqStep k = t) : SeqPath k 1 s t := .cons busy head (.nil t)

/-- The steps t, t + 1, …, 63 of a phase that counts up to 63 and then goes on elsewhere. -/
theorem counting {phase : Phase} {blk : Nat} {next : Seq} {f : State → Nat → State} (hphase : phase ≠ .idle)
    (hstep : ∀ (s : State) (t : Nat),
      (s.withSeq ⟨phase, blk, t⟩).seqStep k = (f s t).withSeq (if t < 63 then ⟨phase, blk, t + 1⟩ else next))
    {t : Nat} (ht : t + n = 63) (s : State) :
    SeqPath k (n + 1) (s.withSeq ⟨phase, blk, t⟩) (((List.range' t (n + 1)).foldl f s).withSeq next) := by
  have hbusy (s : State) (t : Nat) : (s.withSeq ⟨phase, blk, t⟩).busy = true := by simp [State.busy, State.withSeq, hphase]
  induction n generalizing s t with
  | zero => exact single (hbusy s t) ((hstep s t).trans (by rw [if_neg (by omega)]; rfl))
  | succ n ih =>
    refine cons (hbusy s t) ((hstep s t).trans (by rw [if_pos (by omega)])) ?_
    rw [List.range'_succ, List.foldl_cons]
    exact ih (by omega) (f s t)

/-! ### The phases of the composite commands -/

/-- WLOAD and the 48 steps WSTEP (R186). -/
theorem schedule (k : Composite) (s : State) (blk : Nat) :
    SeqPath k 49 (s.withSeq ⟨.wload, blk, 0⟩) ((s.expandWrites blk).withSeq (k.afterSchedule blk)) :=
  .cons rfl rfl (counting (n := 47) (f := State.wstepWrites) (by decide) (fun _ _ => rfl) rfl (s.wloadWrites blk))

theorem cfold (k : Composite) (s : State) (blk : Nat) :
    SeqPath k 1 (s.withSeq ⟨.cfold, blk, 0⟩) (s.cfoldWrites.withSeq (k.afterFold blk s.blkCount.toNat)) :=
  single rfl rfl

/-- CLOAD, the 64 rounds and CFOLD (R207). -/
theorem compress (k : Composite) (s : State) (blk : Nat) :
    SeqPath k 66 (s.withSeq ⟨.cload, blk, 0⟩) (s.compressWrites.withSeq (k.afterFold blk s.blkCount.toNat)) := by
  have hrounds : SeqPath k 64 (s.cloadWrites.withSeq ⟨.round, blk, 0⟩)
      (s.cloadWrites.roundAllWrites.withSeq ⟨.cfold, blk, 0⟩) := by
    rw [State.roundAllWrites, List.range_eq_range']
    exact counting (n := 63) (f := State.roundWrites) (by decide) (fun _ _ => rfl) rfl s.cloadWrites
  have hcount : s.cloadWrites.roundAllWrites.blkCount = s.blkCount :=
    ((State.WritesOnly.foldl State.roundWrites_writesOnly _ s.cloadWrites).blank .pad (by decide)).2
  rw [State.compressWrites, ← hcount]
  exact .cons rfl rfl (hrounds.trans (cfold k _ blk))

/-- The padding step, where it succeeds (R169). -/
theorem seqStep_pad (k : Composite) (blk : Nat) (he : s.ensurePad = .ok t) :
    (s.withSeq ⟨.pad, blk, 0⟩).seqStep k = t.withSeq ⟨.wload, blk, 0⟩ := by
  have hstep : (s.withSeq ⟨.pad, blk, 0⟩).seqStep k =
      (if s.padValid then s.withSeq ⟨.pad, blk, 0⟩ else (s.withSeq ⟨.pad, blk, 0⟩).padWrites).withSeq
        ⟨.wload, blk, 0⟩ := rfl
  rcases s.ensurePad_cases with ⟨hp, h⟩ | ⟨_, _, h⟩ | ⟨hp, _, h⟩
  · cases he.symm.trans h
    rw [hstep, hp]
    rfl
  · cases he.symm.trans h
  · cases he.symm.trans h
    rw [hstep, hp]
    rfl

/-- The last step. -/
theorem finish (k : Composite) (s : State) (blk : Nat) :
    SeqPath k 1 (s.withSeq ⟨.done, blk, 0⟩) ((k.finish s).withSeq Seq.ready) :=
  single rfl (by cases k <;> rfl)

/-- One block of HASH (R230 step 3). -/
theorem hashBlock (s : State) (blk : Nat) :
    SeqPath .hash 115 (s.withSeq ⟨.wload, blk, 0⟩)
      ((s.hashBlock blk).withSeq (Composite.hash.afterFold blk s.blkCount.toNat)) := by
  have hcount : (s.expandWrites blk).blkCount = s.blkCount := ((s.expandWrites_writesOnly blk).blank .pad (by decide)).2
  rw [← hcount]
  exact (schedule .hash s blk).trans (compress .hash (s.expandWrites blk) blk)

/-- The blocks blk, blk + 1, …, up to the last one. -/
theorem hashBlocks {blk : Nat} (hn : blk + n + 1 = s.blkCount.toNat) :
    SeqPath .hash (115 * (n + 1)) (s.withSeq ⟨.wload, blk, 0⟩)
      (((List.range' blk (n + 1)).foldl State.hashBlock s).withSeq ⟨.done, blk + n, 0⟩) := by
  induction n generalizing s blk with
  | zero =>
    have hblock := hashBlock s blk
    rwa [Composite.afterFold, if_neg (by omega)] at hblock
  | succ n ih =>
    have hcount : (s.hashBlock blk).blkCount = s.blkCount := ((s.hashBlock_writesOnly blk).blank .pad (by decide)).2
    have hblock := hashBlock s blk
    rw [Composite.afterFold, if_pos (by omega)] at hblock
    have hrest := ih (s := s.hashBlock blk) (blk := blk + 1) (by rw [hcount]; omega)
    rw [List.range'_succ, List.foldl_cons, show 115 * (n + 1 + 1) = 115 + 115 * (n + 1) by omega,
      show blk + (n + 1) = blk + 1 + n by omega]
    exact hblock.trans hrest

/-- A path to the state that a command leaves, from the state in which the command is accepted. -/
theorem refines {i : Instr} (hl : s.Legal) (hexec : exec i s = .next t)
    (hpath : SeqPath k n (s.withSeq k.first) (t.withSeq Seq.ready)) :
    exec i s = .next (State.seqRun k n (s.seqStart k)) ∧ ∀ m, m < n → (State.seqRun k m (s.seqStart k)).busy = true := by
  obtain ⟨_, _, _, hseq, _⟩ := exec_writeFrame hexec
  rw [State.withSeq_eq_self (hseq.trans hl.ready)] at hpath
  exact ⟨hexec.trans (congrArg _ hpath.seqRun_eq.symm), hpath.busy_before⟩

end SeqPath

/-! ### Where the composite commands start -/

section Start

variable {s : State} (hl : s.Legal)
include hl

theorem State.Legal.bitLen_mod (h : ¬ s.padFails) : s.bitLen % 8 = 0 := by
  cases hp : s.padValid with
  | true => exact (hl.padSet hp).1
  | false => exact not_not.1 fun h8 => h ⟨hp, h8⟩

theorem State.Legal.countAfterPad_eq : s.countAfterPad = s.blocks := by
  cases hp : s.padValid with
  | true => simp [State.countAfterPad, hp, (hl.padSet hp).2]
  | false => simp [State.countAfterPad, hp]

/-- HASH without a fault, before the blocks are put together (R230). -/
theorem exec_hash_blocks (d : Word) (hf : s.fault = false) (h8 : s.bitLen % 8 = 0) :
    exec (.hash d) s = .next (s.hashReady.hashBlocks.respond true 0) := by
  rw [exec_hash, State.ensurePad_legal hl.initWrites h8]
  exact runCommand_ok _ _ _ hf

end Start

/-- Settles O52: for each composite command, the path of its phases ends in what the atomic command writes. -/
theorem sequencerRefinesAtomicCommand : Obligations.SequencerRefinesAtomicCommand := by
  unfold Obligations.SequencerRefinesAtomicCommand
  intro k d s hl hf hfault
  cases k with
  | expand idx =>
    obtain ⟨hpad, hidx⟩ : ¬ s.padFails ∧ idx < s.blocks := by
      rw [Composite.instr, State.faultOf, hl.countAfterPad_eq] at hfault
      split_ifs at hfault with hpad hidx
      exact ⟨hpad, Nat.lt_of_not_le hidx⟩
    have he := State.ensurePad_legal hl (hl.bitLen_mod hpad)
    refine SeqPath.refines hl (exec_expand_ok d hf he (by rwa [State.padWrites_blkCount_toNat])) ?_
    exact .cons rfl (SeqPath.seqStep_pad _ idx he) 
      ((SeqPath.schedule (.expand idx) s.padWrites idx).trans (SeqPath.finish (.expand idx) (s.padWrites.expandWrites idx) idx))
  | compress =>
    have hfill : s.schedFill = 64 := by
      rw [Composite.instr, State.faultOf] at hfault
      split_ifs at hfault with hfill
      exact not_not.1 hfill
    refine SeqPath.refines hl (exec_compress_ok d hf hfill) ?_
    exact (SeqPath.compress .compress s 0).trans (SeqPath.finish .compress s.compressWrites 0)
  | hash =>
    have h8 : s.bitLen % 8 = 0 := by
      rw [Composite.instr, State.faultOf] at hfault
      split_ifs at hfault with hpad
      exact hl.bitLen_mod hpad
    have hcount : s.hashReady.blkCount.toNat = s.blocks := s.initWrites.padWrites_blkCount_toNat
    have hlast : s.blocks - 1 + 1 = s.blocks := Nat.sub_add_cancel s.blocks_pos
    have hblocks := SeqPath.hashBlocks (s := s.hashReady) (blk := 0) (n := s.blocks - 1) (by omega)
    rw [hlast, ← List.range_eq_range'] at hblocks
    refine SeqPath.refines hl (exec_hash_blocks hl d hf h8) ?_
    rw [State.hashBlocks, hcount]
    have hpad := SeqPath.seqStep_pad .hash 0 (State.ensurePad_legal hl.initWrites h8)
    exact .cons (t := s.initWrites.withSeq ⟨.pad, 0, 0⟩) rfl rfl (.cons rfl hpad (hblocks.trans (SeqPath.finish _ _ _)))

end Sys2Proof.Machine

/-! PROOF. What the host does (R101, R301): MSGLOAD byte by byte, and MSGLOAD, SETLENB and HASH in a row. -/

namespace Sys2Proof.Machine

/-! ### Runs of commands -/

theorem runCommands_cons_state {i : Instr} {s t : State} (is : List Instr) (h : exec i s = .next t) :
    (runCommands (i :: is) s).1 = (runCommands is t).1 := by
  rw [runCommands_cons is h]

theorem runCommands_single {i : Instr} {s t : State} (h : exec i s = .next t) : (runCommands [i] s).1 = t :=
  runCommands_cons_state [] h

/-- No command stops a run, so that a run goes on where its first part ends. -/
theorem runCommands_append (is js : List Instr) (s : State) :
    (runCommands (is ++ js) s).1 = (runCommands js (runCommands is s).1).1 := by
  induction is generalizing s with
  | nil => rfl
  | cons i is ih =>
    obtain ⟨t, ht⟩ := exec_next i s
    rw [List.cons_append, runCommands_cons_state _ ht, runCommands_cons_state _ ht, ih]

/-! ### MSGLOAD -/

theorem lowByte_zext32 (b : Byte) : lowByte (zext32 b) = b := by
  apply BitVec.eq_of_toNat_eq
  rw [lowByte_toNat, zext32_toNat]
  exact Nat.mod_eq_of_lt b.isLt

/-- In t the bytes stand from address a on; every other byte is that of s, and so is the capacity. -/
structure State.Loaded (a : Nat) (bs : List Byte) (s t : State) : Prop where
  fault : t.fault = false
  cap : t.msgCap = s.msgCap
  inside : ∀ k, k < bs.length → t.msgByte (a + k) = bs.getD k 0
  outside : ∀ b, b < a ∨ a + bs.length ≤ b → t.msgByte b = s.msgByte b
  legal : s.Legal → t.Legal

namespace State.Loaded

variable {s t : State} {a : Nat} {b : Byte} {bs : List Byte}

theorem nil (hf : s.fault = false) : Loaded a [] s s where
  fault := hf
  cap := rfl
  inside k hk := absurd hk (Nat.not_lt_zero k)
  outside _ _ := rfl
  legal hl := hl

/-- One MSGWR, and the rest of the bytes after it. -/
theorem cons (ha : a < s.msgCap) (h : Loaded (a + 1) bs ((s.writeMsg a b).clearMemos.respond true 0) t) :
    Loaded a (b :: bs) s t where
  fault := h.fault
  cap := h.cap
  inside k hk := by
    cases k with
    | zero => exact (h.outside a (.inl (Nat.lt_succ_self a))).trans (s.msgByte_writeMsg_same a b)
    | succ k =>
      rw [List.getD_cons_succ, ← h.inside k (Nat.lt_of_succ_lt_succ hk), Nat.add_right_comm, Nat.add_assoc]
  outside c hc := by
    rw [List.length_cons] at hc
    exact (h.outside c (by omega)).trans (s.msgByte_writeMsg_other b (by omega))
  legal hl := h.legal ((hl.writeMsg b ha).clearMemos.respond_true 0)

end State.Loaded

theorem runCommands_msgload {s : State} {a : Nat} {bs : List Byte} (hf : s.fault = false)
    (hroom : a + bs.length ≤ s.msgCap) : State.Loaded a bs s (runCommands (msgloadCommands a bs) s).1 := by
  induction bs generalizing a s with
  | nil => exact .nil hf
  | cons b bs ih =>
    rw [List.length_cons] at hroom
    have ha : a < s.msgCap := by omega
    have hexec := exec_msgwr_ok hf (zext32 b) ha
    rw [lowByte_zext32] at hexec
    rw [msgloadCommands, runCommands_cons_state _ hexec]
    exact .cons ha (ih (s := (s.writeMsg a b).clearMemos.respond true 0) hf (by show a + 1 + bs.length ≤ s.msgCap; omega))

/-- Settles O55: MSGLOAD is one MSGWR for each byte. -/
theorem msgloadStoresBytes : Obligations.MsgloadStoresBytes := by
  unfold Obligations.MsgloadStoresBytes
  intro a bs s hf hroom
  have h : State.Loaded a bs s (runCommands (Pseudo.msgload a bs).expand s).1 := runCommands_msgload hf hroom
  exact ⟨_, rfl, h.fault, h.cap, h.inside, h.outside⟩

/-! ### MSGLOAD, SETLENB, HASH -/

theorem State.message_eq_of_getD {s : State} {m : List Byte} (hlength : s.byteLen = m.length)
    (hbytes : ∀ k, k < m.length → s.msgByte k = m.getD k 0) : s.message = m := by
  refine List.ext_getElem (by rw [State.message_length, hlength]) fun k hk hk' => ?_
  calc s.message[k]
    _ = s.msgByte k := by simp [State.message]
    _ = m[k] := by rw [hbytes k hk', List.getD_eq_getElem _ _ hk']

theorem State.hashBlocks_h {s : State} (h8 : s.bitLen % 8 = 0) : s.hashReady.hashBlocks.h = sha256 s.message := by
  rw [State.hashBlocks_hashReady h8]
  show chain (paddedMessage s.message) (s.blocks - 1 + 1) = sha256 s.message
  rw [Nat.sub_add_cancel s.blocks_pos, s.chain_blocks]

/-- HASH leaves the digest of the message, in a legal state whose memos hold true. -/
theorem exec_hash_leaves_digest (d : Word) {s : State} (hl : s.Legal) (hf : s.fault = false) (h8 : s.bitLen % 8 = 0) :
    ∃ t, exec (.hash d) s = .next t ∧ t.h = sha256 s.message ∧ t.digestValid = true ∧ t.fault = false ∧
      t.rsp = some ⟨true, 0⟩ ∧ t.Legal ∧ t.MemosTrue := by
  have hu : s.Commits s.hashReady.hashBlocks := .hash h8
  exact ⟨_, exec_hash_blocks hl d hf h8, State.hashBlocks_h h8, rfl, (State.hashBlocks_writesOnly _).fault.trans hf, rfl,
    (hu.legal hl).respond_true 0, (State.hashBlocks_memosTrue h8).of_writesOnly (State.respond_writesOnly _ true 0)⟩

/-- Settles O56: MSGLOAD leaves the bytes of the message, SETLENB its length, and HASH the digest of what is held then. -/
theorem hostHashesAnyMessage : Obligations.HostHashesAnyMessage := by
  unfold Obligations.HostHashesAnyMessage
  intro m s hl hf hm
  have hload : State.Loaded 0 m s (runCommands (msgloadCommands 0 m) s).1 := runCommands_msgload hf (by omega)
  have hprogram : (Pseudo.msgload 0 m).expand ++ (Pseudo.setlenb m.length).expand ++ [.hash 0] =
      msgloadCommands 0 m ++ [.wrreg 0x04 (BitVec.ofNat 32 (8 * m.length)), .hash 0] := by
    rw [List.append_assoc]
    rfl
  rw [hprogram, runCommands_append]
  generalize (runCommands (msgloadCommands 0 m) s).1 = t at hload
  have hcap : m.length ≤ 16777144 := hm.trans hl.cap.2
  have hlength : (BitVec.ofNat 32 (8 * m.length)).toNat = 8 * m.length := by
    rw [BitVec.toNat_ofNat]
    omega
  have hfits : (BitVec.ofNat 32 (8 * m.length)).toNat ≤ 8 * t.msgCap := by
    rw [hlength, hload.cap]
    omega
  rw [runCommands_cons_state _ (exec_wrreg_ok hload.fault hfits)]
  have hbitLen : ((t.setBitlen (BitVec.ofNat 32 (8 * m.length))).respond true 0).bitLen = 8 * m.length := hlength
  have hmessage : ((t.setBitlen (BitVec.ofNat 32 (8 * m.length))).respond true 0).message = m := by
    refine State.message_eq_of_getD (by rw [State.byteLen, hbitLen]; omega) fun k hk => ?_
    rw [State.respond_msgByte, State.setBitlen_msgByte, ← hload.inside k hk, Nat.zero_add]
  obtain ⟨u, hexec, hu⟩ := exec_hash_leaves_digest 0 (((hload.legal hl).setBitlen hfits).respond_true 0) hload.fault
    (by rw [hbitLen]; omega)
  rw [hmessage] at hu
  exact ⟨u, runCommands_single hexec, hu⟩

end Sys2Proof.Machine
